-- ==== Sys2Proof/Word.lean ====
section
/-! DEFINITION. The word types of the block: bytes of the two streams, sequence numbers, CRC words (spec 00_scope R7,
10_state R11 to R13, 30_encoding R78). All quantities are unsigned. -/

namespace Sys2Proof

/-- One byte of a stream or of a payload (R7). -/
abbrev Byte := BitVec 8

/-- A 3-bit sequence or acknowledgment number; `+` and `-` are arithmetic modulo 8 (R78 item 1). -/
abbrev SeqNum := BitVec 3

/-- A 4-bit packet type code (R65). -/
abbrev PType := BitVec 4

/-- A 12-bit payload length (R16, R61). -/
abbrev PLen := BitVec 12

/-- A 16-bit CRC register or value (R67). -/
abbrev Word16 := BitVec 16

end Sys2Proof
end

