-- ==== Sys2Proof/Config.lean ====
section
/-! DEFINITION. What an implementation fixes: the constants of 00_scope R5, the static parameters of 00_scope R6 as plain
data, and the free values of the model: the Packet Pool's answers (20_memory R46, 93 U1), and whether an acknowledgment goes out
before ACTIVE (42_arq_engine R134, 60_exceptions R200). -/

namespace Sys2Proof.Config

/-- `WINDOW = 4` (R5). -/
def window : Nat := 4

/-- `MAX_PAYLOAD = 4095` bytes (R5). -/
def maxPayload : Nat := 4095

/-- `HDR_LEN = 4` bytes (R5). -/
def hdrLen : Nat := 4

/-- `CRC_LEN = 2` bytes (R5). -/
def crcLen : Nat := 2

/-- The frame delimiter `0xC0` (R5). -/
def delimByte : Byte := 0xC0

/-- The escape byte `0xDB` (R5). -/
def escByte : Byte := 0xDB

/-- The Packet Pool's answer to the n-th `acquire` for which the environment has put no answer in the state
(`State.poolAnswers`): a FREE VALUE, one boolean for each call (R46: "chosen freely by the environment at each
call"; 93 U1). No body: nothing can be proved of it. Log entry 1. -/
opaque poolAnswer : Nat → Bool

/-- Whether TX_PULL sends an owed acknowledgment before ACTIVE: a FREE VALUE, one for each implementation. R134 sends it in every
state but IDLE; R200's table (the gating of R22) lets link-control frames alone out in SYNCING and CONFIGURING; 90_conflicts.md
rules on neither. No body: nothing can be proved of it. DESIGN CHOICE, log entry 18. -/
opaque ackBeforeActive : Bool

end Sys2Proof.Config

namespace Sys2Proof

/-- The static configuration (00_scope R6, 10_state R27): constant while the machine runs; no operation writes it.
Queue capacity is not here: the queues are unbounded lists (R44, decision D26). -/
structure Params where
  /-- `SYNC_RETRY_LIMIT`, read by R163. -/
  syncRetryLimit : Nat
  /-- `SYNC_INTERVAL` in milliseconds; carried by TIMER events only (R239: no rule's result depends on it). -/
  syncInterval : Nat
  /-- `RTX_INTERVAL` in milliseconds; carried by TIMER events only (R239). -/
  rtxInterval : Nat
  /-- `SW_FLOW_ESCAPE`, read by R92. -/
  swFlowEscape : Bool
  /-- `CFG_TX`: absent or one byte, read by R158 (the absent case is the parameter's own value). -/
  cfgTx : Option Byte
  /-- `CFG_RSP_TX`: absent or one byte, read by R158. -/
  cfgRspTx : Option Byte
  /-- `HEADER_RESERVE`, carried by `acquire` calls only (R46). -/
  headerReserve : Nat
  deriving DecidableEq, Repr

/-- The values R6 gives for its parameters ("value used in vectors"). `RTX_INTERVAL` has no value in the spec: 0 here,
DESIGN CHOICE, log entry 2. -/
def Params.standard : Params where
  syncRetryLimit := 50
  syncInterval := 100
  rtxInterval := 0
  swFlowEscape := false
  cfgTx := none
  cfgRspTx := none
  headerReserve := 0

end Sys2Proof
end

