-- ==== Sys2Proof/Syntax.lean ====
section
/-! DEFINITION. The instructions: one constructor for each of the 37 rows of spec/opcode_table.json, and the raw form
(`Request`) in which an agent offers one to the block (30_encoding R70, R61, R71, R74, R79), and the inputs of a step (`Input`). -/

namespace Sys2Proof

/-- The fields of a frame header besides its packet type (R61): `h0` holds `seq`, `ack`, `crc_present`, `reliable`;
`h1` and `h2` hold the length; `h3` is the checksum byte AS RECEIVED, right or wrong. -/
structure HdrFields where
  seq : SeqNum
  ack : SeqNum
  crcPresent : Bool
  reliable : Bool
  len : PLen
  checksum : Byte
  deriving DecidableEq, Repr

/-- The rows of spec/opcode_table.json.

* Byte codes (formats BYTE1, BYTE2; R70): the code's wire bytes arrive on the receive stream.
* Headers (format HDR; R61, R65): a frame with this header arrives: its opening delimiter, the four header bytes and
  `rest`, the body bytes after the header (payload, then CRC trailer), an operand beside the 32 bits of the row.
* Link-control messages (format LC; R71): the message is received in a frame of its own (`RX_LC`, R77). `params` are the
  payload bytes after the first two; `lcUnknown` carries its whole payload, which may be shorter than two bytes.
* Commands (format CMD; R74): the eight operations with their operands. -/
inductive Instr where
  -- byte codes
  | delim
  | escDelim
  | escEsc
  | escXon
  | escXoff
  | escInvalid (x : Byte)
  | escThenDelim
  | literal (b : Byte)
  -- frame headers, by packet type
  | hdrAck (h : HdrFields) (rest : List Byte)
  | hdrCommand (h : HdrFields) (rest : List Byte)
  | hdrAclData (h : HdrFields) (rest : List Byte)
  | hdrScoData (h : HdrFields) (rest : List Byte)
  | hdrEvent (h : HdrFields) (rest : List Byte)
  | hdrType5 (h : HdrFields) (rest : List Byte)
  | hdrType6 (h : HdrFields) (rest : List Byte)
  | hdrType7 (h : HdrFields) (rest : List Byte)
  | hdrType8 (h : HdrFields) (rest : List Byte)
  | hdrType9 (h : HdrFields) (rest : List Byte)
  | hdrType10 (h : HdrFields) (rest : List Byte)
  | hdrType11 (h : HdrFields) (rest : List Byte)
  | hdrType12 (h : HdrFields) (rest : List Byte)
  | hdrType13 (h : HdrFields) (rest : List Byte)
  | hdrType14 (h : HdrFields) (rest : List Byte)
  | hdrLinkControl (h : HdrFields) (rest : List Byte)
  -- link-control messages
  | lcSync (params : List Byte)
  | lcSyncRsp (params : List Byte)
  | lcConfig (params : List Byte)
  | lcConfigRsp (params : List Byte)
  | lcUnknown (payload : List Byte)
  -- commands: the eight operations
  | openLink
  | closeLink
  | submit (ptype : PType) (reliable : Bool) (payload : List Byte) (callerOwned : Bool) (tag : Nat)
  | release (id : Nat)
  | rxByte (b : Byte)
  | txPull
  | rtxExpire
  | syncExpire
  deriving DecidableEq, Repr

/-- The five formats of the opcode table (R79). -/
inductive Format where
  | byte1
  | byte2
  | hdr
  | lc
  | cmd
  deriving DecidableEq, Repr

/-- One raw request, as an agent offers it: the row's format, the row's code bytes in wire order (a
command's 4-bit code in one byte), the numeric operands that "travel beside the code, not inside it" (opcode table,
CMD rows; order of R74: `ptype, reliable, caller_owned, tag`; `id`; `b`), and the byte-list operand (SUBMIT's payload,
a header's further body bytes, a message's further bytes). Log entry 3. -/
structure Request where
  format : Format
  code : List Byte
  operands : List Nat
  payload : List Byte
  deriving DecidableEq, Repr

/-- What the environment gives the block in one step: an operation or wire code, or the hardware reset, which is no row of the
opcode table (R215 (a); log entries 3 and 11). -/
inductive Input where
  | request (r : Request)
  | hardwareReset
  deriving DecidableEq, Repr

/-- Why a request is no instruction. Each is one of the cases 93 U9 tells a model to refuse, or a request whose shape
is none of the table's. -/
inductive DecodeError where
  /-- A command code `0x8` to `0xF`, unassigned (R74, R75), or no 4-bit code at all. -/
  | unassignedCommand
  /-- A command with operands it does not take, or without those it takes. -/
  | operandShape
  /-- An operand wider than its field: `ptype` over 4 bits, `reliable` or `caller_owned` over 1, `b` over 8 (93 U9). -/
  | operandTooWide
  /-- `0xDB` alone: the first byte of a two-byte code, no code by itself (opcode table, row LITERAL). -/
  | loneEscape
  /-- A byte-code request of another shape. -/
  | byteCodeShape
  /-- A header request without four header bytes. -/
  | headerShape
  /-- A link-control request of another shape. -/
  | messageShape
  /-- A link-control payload over 4095 bytes, which no frame can carry (R60). -/
  | messageTooLong
  deriving DecidableEq, Repr

end Sys2Proof
end

