-- ==== Sys2Proof/Machine/Operands.lean ====
section
/-! DEFINITION. Operand forms: the bit layout of the frame header (R61 to R63), the byte codes' values (R70), and the
link-control messages (R71, R72, R158). Pure functions on bytes. -/

namespace Sys2Proof.Machine

/-- Packet type ACK (R65). -/
def ptAck : PType := 0

/-- Packet type LINK_CONTROL (R65). -/
def ptLinkControl : PType := 15

/-! ### The four substituted bytes of the byte-stuffing codes (R70) -/

/-- Second byte of ESC_DELIM. -/
def codeDelim : Byte := 0xDC
/-- Second byte of ESC_ESC. -/
def codeEsc : Byte := 0xDD
/-- Second byte of ESC_XON. -/
def codeXon : Byte := 0xDE
/-- Second byte of ESC_XOFF. -/
def codeXoff : Byte := 0xDF
/-- The body byte `0x11` that ESC_XON stands for. -/
def xonByte : Byte := 0x11
/-- The body byte `0x13` that ESC_XOFF stands for. -/
def xoffByte : Byte := 0x13

/-! ### Header construction (R63) -/

/-- `h0 = seq | (ack << 3) | (crc << 6) | (rel << 7)` (R63). -/
def hdrByte0 (seq ack : SeqNum) (crc rel : Bool) : Byte :=
  seq.setWidth 8 ||| (ack.setWidth 8 <<< 3) ||| ((BitVec.ofBool crc).setWidth 8 <<< 6)
    ||| ((BitVec.ofBool rel).setWidth 8 <<< 7)

/-- `h1 = ptype | ((len & 0xF) << 4)` (R63). -/
def hdrByte1 (ptype : PType) (len : PLen) : Byte :=
  ptype.setWidth 8 ||| ((len.setWidth 4).setWidth 8 <<< 4)

/-- `h2 = (len >> 4) & 0xFF` (R63). -/
def hdrByte2 (len : PLen) : Byte := (len >>> 4).setWidth 8

/-- The header checksum of the first three header bytes: `(~(h0 + h1 + h2)) & 0xFF` (R64). -/
def hdrChecksum (h0 h1 h2 : Byte) : Byte := ~~~(h0 + h1 + h2)

/-- The four bytes of a header with the given type and fields; the checksum byte is the field's, not computed (R61). -/
def hdrBytes (ptype : PType) (h : HdrFields) : List Byte :=
  [hdrByte0 h.seq h.ack h.crcPresent h.reliable, hdrByte1 ptype h.len, hdrByte2 h.len, h.checksum]

/-- The checksum a header with this type and these fields must carry (R63, R64). -/
def rightChecksum (ptype : PType) (h : HdrFields) : Byte :=
  hdrChecksum (hdrByte0 h.seq h.ack h.crcPresent h.reliable) (hdrByte1 ptype h.len) (hdrByte2 h.len)

/-- `HDR_BUILD(seq, ack, crc, rel, ptype, len)` (R63). -/
def hdrBuild (seq ack : SeqNum) (crc rel : Bool) (ptype : PType) (len : PLen) : List Byte :=
  let h0 := hdrByte0 seq ack crc rel
  let h1 := hdrByte1 ptype len
  let h2 := hdrByte2 len
  [h0, h1, h2, hdrChecksum h0 h1 h2]

/-! ### Field extraction (R62) -/

/-- Byte `i` of a header; a byte not held reads 0 (only on lists shorter than four bytes, which no rule reads fields
from: log entry 4). -/
def hdrAt (hdr : List Byte) (i : Nat) : Byte := hdr.getD i 0

/-- `packet_type = h1[3:0]` (R62). -/
def hdrType (hdr : List Byte) : PType := (hdrAt hdr 1).extractLsb' 0 4

/-- The other fields of a received header (R62); `payload_length` is `h2` in the high bits over `h1[7:4]`. -/
def hdrFields (hdr : List Byte) : HdrFields where
  seq := (hdrAt hdr 0).extractLsb' 0 3
  ack := (hdrAt hdr 0).extractLsb' 3 3
  crcPresent := (hdrAt hdr 0).getLsbD 6
  reliable := (hdrAt hdr 0).getLsbD 7
  len := (hdrAt hdr 2 ++ (hdrAt hdr 1).extractLsb' 4 4 : BitVec (8 + 4))
  checksum := hdrAt hdr 3

/-- The header checksum test of R112: `rx_hdr[3]` against the sum of the first three bytes. -/
def checksumOk (hdr : List Byte) : Bool :=
  hdrAt hdr 3 == hdrChecksum (hdrAt hdr 0) (hdrAt hdr 1) (hdrAt hdr 2)

/-! ### Link-control messages (R71, R72, R158) -/

/-- The four handshake messages. -/
inductive LcMsg where
  | sync
  | syncRsp
  | config
  | configRsp
  deriving DecidableEq, Repr

/-- The two bytes by which a message is recognised (R71). -/
def lcPair : LcMsg → List Byte
  | .sync => [0x01, 0x7E]
  | .syncRsp => [0x02, 0x7D]
  | .config => [0x03, 0xFC]
  | .configRsp => [0x04, 0x7B]

/-- `LC_CLASSIFY(payload)`; `none` is UNKNOWN: a payload shorter than two bytes, or a pair not in the table (R71). -/
def lcClassify : List Byte → Option LcMsg
  | a :: b :: _ =>
    if [a, b] = lcPair .sync then some .sync
    else if [a, b] = lcPair .syncRsp then some .syncRsp
    else if [a, b] = lcPair .config then some .config
    else if [a, b] = lcPair .configRsp then some .configRsp
    else none
  | _ => none

/-- The payload the block sends for a message: the pair, and for CONFIG and CONFIG_RSP the parameter's byte when it is
present (R158). -/
def lcPayload (p : Params) : LcMsg → List Byte
  | .sync => lcPair .sync
  | .syncRsp => lcPair .syncRsp
  | .config => lcPair .config ++ p.cfgTx.toList
  | .configRsp => lcPair .configRsp ++ p.cfgRspTx.toList

/-- The "CRC enabled" bit of a configuration byte: bit 4, mask `0x10` (R72). -/
def cfgCrcEnabled (cfg : Byte) : Bool := cfg.getLsbD 4

end Sys2Proof.Machine
end

