-- ==== Sys2Proof/WellFormed.lean ====
section
/-! DEFINITION. Which instruction terms are codes of the table: the byte values a byte-code row excludes, and the limits of
a link-control payload (R70, R71, R79). -/

namespace Sys2Proof

/-- The second bytes that are no ESC_INVALID: the four codes and the delimiter (R98). -/
def escapeSecondBytes : List Byte :=
  [Machine.codeDelim, Machine.codeEsc, Machine.codeXon, Machine.codeXoff, Config.delimByte]

/-- The term is a code of its row. Rows not named have no excluded value: every header field, every operand of a
command and every `rest` is admitted (R75: what a field may hold is settled when the frame is received). -/
def Instr.wf : Instr → Bool
  | .escInvalid x => !escapeSecondBytes.contains x
  | .literal b => b != Config.delimByte && b != Config.escByte
  | .lcSync params => decide (params.length + 2 ≤ Config.maxPayload)
  | .lcSyncRsp params => decide (params.length + 2 ≤ Config.maxPayload)
  | .lcConfig params => decide (params.length + 2 ≤ Config.maxPayload)
  | .lcConfigRsp params => decide (params.length + 2 ≤ Config.maxPayload)
  | .lcUnknown payload => (Machine.lcClassify payload).isNone && decide (payload.length ≤ Config.maxPayload)
  | .delim => true
  | .escDelim => true
  | .escEsc => true
  | .escXon => true
  | .escXoff => true
  | .escThenDelim => true
  | .hdrAck _ _ => true
  | .hdrCommand _ _ => true
  | .hdrAclData _ _ => true
  | .hdrScoData _ _ => true
  | .hdrEvent _ _ => true
  | .hdrType5 _ _ => true
  | .hdrType6 _ _ => true
  | .hdrType7 _ _ => true
  | .hdrType8 _ _ => true
  | .hdrType9 _ _ => true
  | .hdrType10 _ _ => true
  | .hdrType11 _ _ => true
  | .hdrType12 _ _ => true
  | .hdrType13 _ _ => true
  | .hdrType14 _ _ => true
  | .hdrLinkControl _ _ => true
  | .openLink => true
  | .closeLink => true
  | .submit _ _ _ _ _ => true
  | .release _ => true
  | .rxByte _ => true
  | .txPull => true
  | .rtxExpire => true
  | .syncExpire => true

end Sys2Proof
end

