-- ==== Sys2Proof/Decode.lean ====
section
/-! DEFINITION. The decoder, total on every request and refusing by name, and after it the encoder, both from the opcode
table's encodings (30_encoding R61, R70, R71, R74, R75, R79). -/

namespace Sys2Proof

/-- Byte codes of one byte: DELIM, then LITERAL as the default (R70, R79); `0xDB` alone is no code. -/
def decodeByte1 (b : Byte) : Except DecodeError Instr :=
  if b = Config.delimByte then .ok .delim
  else if b = Config.escByte then .error .loneEscape
  else .ok (.literal b)

/-- Byte codes of two bytes, the first of them `0xDB`: the four codes, the delimiter, then ESC_INVALID (R70, R79). -/
def decodeByte2 (first second : Byte) : Except DecodeError Instr :=
  if first ≠ Config.escByte then .error .byteCodeShape
  else if second = Machine.codeDelim then .ok .escDelim
  else if second = Machine.codeEsc then .ok .escEsc
  else if second = Machine.codeXon then .ok .escXon
  else if second = Machine.codeXoff then .ok .escXoff
  else if second = Config.delimByte then .ok .escThenDelim
  else .ok (.escInvalid second)

/-- The header row of a packet type (R65, R79). -/
def headerOf (ptype : PType) (h : HdrFields) (rest : List Byte) : Instr :=
  match ptype.toNat with
  | 0 => .hdrAck h rest
  | 1 => .hdrCommand h rest
  | 2 => .hdrAclData h rest
  | 3 => .hdrScoData h rest
  | 4 => .hdrEvent h rest
  | 5 => .hdrType5 h rest
  | 6 => .hdrType6 h rest
  | 7 => .hdrType7 h rest
  | 8 => .hdrType8 h rest
  | 9 => .hdrType9 h rest
  | 10 => .hdrType10 h rest
  | 11 => .hdrType11 h rest
  | 12 => .hdrType12 h rest
  | 13 => .hdrType13 h rest
  | 14 => .hdrType14 h rest
  | _ => .hdrLinkControl h rest

/-- The header of four bytes (R62): type from `h1[3:0]`, every other bit into its field, the checksum byte as it is. -/
def decodeHeader (code rest : List Byte) : Except DecodeError Instr :=
  if code.length = Config.hdrLen then .ok (headerOf (Machine.hdrType code) (Machine.hdrFields code) rest)
  else .error .headerShape

/-- Link-control messages: the payload's first two bytes are the code, further bytes follow; a payload shorter than two
bytes is UNKNOWN (R71, R79). -/
def decodeMessage (code params : List Byte) : Except DecodeError Instr :=
  if code.length > 2 ∨ (code.length < 2 ∧ params ≠ []) then .error .messageShape
  else if code.length + params.length > Config.maxPayload then .error .messageTooLong
  else match Machine.lcClassify (code ++ params) with
    | some .sync => .ok (.lcSync params)
    | some .syncRsp => .ok (.lcSyncRsp params)
    | some .config => .ok (.lcConfig params)
    | some .configRsp => .ok (.lcConfigRsp params)
    | none => .ok (.lcUnknown (code ++ params))

/-- SUBMIT's operands `ptype, reliable, caller_owned, tag` (R74); values wider than their fields are refused (93 U9). -/
def decodeSubmit (ptype reliable owned tag : Nat) (payload : List Byte) : Except DecodeError Instr :=
  if ptype < 16 ∧ reliable < 2 ∧ owned < 2 then
    .ok (.submit (BitVec.ofNat 4 ptype) (reliable == 1) payload (owned == 1) tag)
  else .error .operandTooWide

/-- Commands by their 4-bit code (R74). -/
def decodeCommand (code : Byte) (operands : List Nat) (payload : List Byte) : Except DecodeError Instr :=
  match code.toNat, operands, payload with
  | 0, [], [] => .ok .openLink
  | 1, [], [] => .ok .closeLink
  | 2, [ptype, reliable, owned, tag], _ => decodeSubmit ptype reliable owned tag payload
  | 3, [id], [] => .ok (.release id)
  | 4, [b], [] => if b < 256 then .ok (.rxByte (BitVec.ofNat 8 b)) else .error .operandTooWide
  | 5, [], [] => .ok .txPull
  | 6, [], [] => .ok .rtxExpire
  | 7, [], [] => .ok .syncExpire
  | n, _, _ => if n < 8 then .error .operandShape else .error .unassignedCommand

/-- The decoder: the instruction of a request, or the name of what is wrong with it. -/
def decode (r : Request) : Except DecodeError Instr :=
  match r.format, r.code with
  | .byte1, [b] => if r.operands = [] ∧ r.payload = [] then decodeByte1 b else .error .byteCodeShape
  | .byte2, [b, x] => if r.operands = [] ∧ r.payload = [] then decodeByte2 b x else .error .byteCodeShape
  | .byte1, _ => .error .byteCodeShape
  | .byte2, _ => .error .byteCodeShape
  | .hdr, code => if r.operands = [] then decodeHeader code r.payload else .error .headerShape
  | .lc, code => if r.operands = [] then decodeMessage code r.payload else .error .messageShape
  | .cmd, [c] => decodeCommand c r.operands r.payload
  | .cmd, _ => .error .unassignedCommand

/-! ### The encoder -/

/-- A byte-code request. -/
def encodeBytes (format : Format) (code : List Byte) : Request := ⟨format, code, [], []⟩

/-- A header request: the four header bytes (R61, R63) and the body bytes after them. -/
def encodeHeader (ptype : PType) (h : HdrFields) (rest : List Byte) : Request :=
  ⟨.hdr, Machine.hdrBytes ptype h, [], rest⟩

/-- A link-control request: the payload split after its second byte. -/
def encodeMessage (payload : List Byte) : Request := ⟨.lc, payload.take 2, [], payload.drop 2⟩

/-- A command request. -/
def encodeCommand (code : Byte) (operands : List Nat) (payload : List Byte) : Request :=
  ⟨.cmd, [code], operands, payload⟩

/-- The request of an instruction, row by row of the opcode table. -/
def encode : Instr → Request
  | .delim => encodeBytes .byte1 [0xC0]
  | .escDelim => encodeBytes .byte2 [0xDB, 0xDC]
  | .escEsc => encodeBytes .byte2 [0xDB, 0xDD]
  | .escXon => encodeBytes .byte2 [0xDB, 0xDE]
  | .escXoff => encodeBytes .byte2 [0xDB, 0xDF]
  | .escInvalid x => encodeBytes .byte2 [0xDB, x]
  | .escThenDelim => encodeBytes .byte2 [0xDB, 0xC0]
  | .literal b => encodeBytes .byte1 [b]
  | .hdrAck h rest => encodeHeader 0 h rest
  | .hdrCommand h rest => encodeHeader 1 h rest
  | .hdrAclData h rest => encodeHeader 2 h rest
  | .hdrScoData h rest => encodeHeader 3 h rest
  | .hdrEvent h rest => encodeHeader 4 h rest
  | .hdrType5 h rest => encodeHeader 5 h rest
  | .hdrType6 h rest => encodeHeader 6 h rest
  | .hdrType7 h rest => encodeHeader 7 h rest
  | .hdrType8 h rest => encodeHeader 8 h rest
  | .hdrType9 h rest => encodeHeader 9 h rest
  | .hdrType10 h rest => encodeHeader 10 h rest
  | .hdrType11 h rest => encodeHeader 11 h rest
  | .hdrType12 h rest => encodeHeader 12 h rest
  | .hdrType13 h rest => encodeHeader 13 h rest
  | .hdrType14 h rest => encodeHeader 14 h rest
  | .hdrLinkControl h rest => encodeHeader 15 h rest
  | .lcSync params => encodeMessage (0x01 :: 0x7E :: params)
  | .lcSyncRsp params => encodeMessage (0x02 :: 0x7D :: params)
  | .lcConfig params => encodeMessage (0x03 :: 0xFC :: params)
  | .lcConfigRsp params => encodeMessage (0x04 :: 0x7B :: params)
  | .lcUnknown payload => encodeMessage payload
  | .openLink => encodeCommand 0x0 [] []
  | .closeLink => encodeCommand 0x1 [] []
  | .submit ptype reliable payload owned tag =>
    encodeCommand 0x2 [ptype.toNat, reliable.toNat, owned.toNat, tag] payload
  | .release id => encodeCommand 0x3 [id] []
  | .rxByte b => encodeCommand 0x4 [b.toNat] []
  | .txPull => encodeCommand 0x5 [] []
  | .rtxExpire => encodeCommand 0x6 [] []
  | .syncExpire => encodeCommand 0x7 [] []

/-! ### Words of the opcode table -/

/-- Byte `i` (0 the lowest) of a number. -/
def byteOf (w i : Nat) : Byte := BitVec.ofNat 8 (w / 256 ^ i)

/-- A request no row has, for a word that is none of the table's. -/
def noRequest : Request := ⟨.cmd, [], [], []⟩

/-- The numeric operands of a command, all 0, for a table word, which gives them no bits. -/
def zeroOperands (code : Nat) : List Nat :=
  match code with
  | 2 => [0, 0, 0, 0]
  | 3 => [0]
  | 4 => [0]
  | _ => []

/-- The request that holds a word of the opcode table, with every operand beside the word 0 or empty. The table numbers
a code of several bytes as ONE number with the first wire byte highest (R79), so that byte is taken from the top. The
width alone does not tell the formats apart: an 8-bit word below 8 is taken as a command (its 4-bit code in a whole
byte), any other as a one-byte code; a 16-bit word is a byte code when its first byte is `0xDB`, else a link-control
message. Log entry 5. -/
def Request.ofTable (nbits w : Nat) : Request :=
  if w ≥ 2 ^ nbits then noRequest
  else if nbits = 4 ∨ (nbits = 8 ∧ w < 8) then ⟨.cmd, [byteOf w 0], zeroOperands w, []⟩
  else if nbits = 8 then ⟨.byte1, [byteOf w 0], [], []⟩
  else if nbits = 16 then
    if byteOf w 1 = Config.escByte then ⟨.byte2, [byteOf w 1, byteOf w 0], [], []⟩
    else ⟨.lc, [byteOf w 1, byteOf w 0], [], []⟩
  else if nbits = 32 then ⟨.hdr, [byteOf w 3, byteOf w 2, byteOf w 1, byteOf w 0], [], []⟩
  else noRequest

/-- The instruction the decoder reads from a word of the opcode table. -/
def decodeTableWord (nbits w : Nat) : Option Instr :=
  match decode (Request.ofTable nbits w) with
  | .ok i => some i
  | .error _ => none

end Sys2Proof
end

