-- ==== Sys2Proof/Machine/State.lean ====
section
/-! DEFINITION. The state of the block, all of it (10_state R10 to R31), its output events (R36), the reasons a step can
stop, and the state after reset (R38). Plain data only. -/

namespace Sys2Proof.Machine

/-- `esc_state`, the byte decoder's state (R20). -/
inductive EscState where
  | noesc
  | esc
  deriving DecidableEq, Repr

/-- `rx_state` (R21). Encodings 5 to 7 do not exist (93 U9). -/
inductive RxState where
  | waitDelimiter
  | waitFrameStart
  | waitHeader
  | waitPayload
  | waitCrc
  deriving DecidableEq, Repr

/-- `link_state`, the link controller's state and the block's mode (R22, R200). -/
inductive LinkState where
  | idle
  | syncing
  | configuring
  | active
  deriving DecidableEq, Repr

/-- A transmit entry (R28). `tag` is none for entries the block itself makes (R159). -/
structure TxEntry where
  ptype : PType
  reliable : Bool
  payload : List Byte
  callerOwned : Bool
  tag : Option Nat
  seq : SeqNum
  deriving DecidableEq, Repr

/-- A receive entry (R30). -/
structure RxEntry where
  id : Nat
  ptype : PType
  payload : List Byte
  deriving DecidableEq, Repr

/-- The result and diagnostic codes (R186). -/
inductive ErrCode where
  | ok
  | framingError
  | headerChecksumError
  | outOfOrderSequence
  | crcMismatch
  | allocationFailure
  | syncRetriesExhausted
  | payloadTooLarge
  | linkControlProtocolError
  | linkNotActive
  | notOpen
  | alreadyOpen
  | invalidAck
  | unknownHandle
  | invalidPacketType
  deriving DecidableEq, Repr

/-- The two timers (R204, R205). -/
inductive Timer where
  | rtx
  | sync
  deriving DecidableEq, Repr

/-- A call on the Timer service, with its interval in milliseconds (R36, R208). -/
inductive TimerCmd where
  | start (interval : Nat)
  | stop
  | restart (interval : Nat)
  deriving DecidableEq, Repr

/-- A call on the Packet Pool (R36, R209). A released buffer is named by its contents. -/
inductive PoolCmd where
  | acquire (totalLength reserve : Nat)
  | release (buffer : List Byte)
  deriving DecidableEq, Repr

/-- The state-change notifications (R36, R202). -/
inductive Notice where
  | active
  | syncFail
  deriving DecidableEq, Repr

/-- Output events (R36). -/
inductive Event where
  /-- `TX_FRAME(bytes)`, the frame TX_PULL returns. -/
  | txFrame (bytes : List Byte)
  /-- `NONE`: TX_PULL has nothing to send. -/
  | txNone
  /-- `ON_PACKET(id, ptype, payload)`. -/
  | onPacket (id : Nat) (ptype : PType) (payload : List Byte)
  /-- `TX_COMPLETE(tag)`. -/
  | txComplete (tag : Option Nat)
  /-- `NOTIFY(ACTIVE)` and `NOTIFY(SYNC_FAIL)`. -/
  | notify (what : Notice)
  /-- `RESULT(code)`. -/
  | result (code : ErrCode)
  /-- `DIAG(code)`. -/
  | diag (code : ErrCode)
  /-- `TIMER(which, cmd)`. -/
  | timer (which : Timer) (cmd : TimerCmd)
  /-- `POOL(cmd)`. -/
  | pool (cmd : PoolCmd)
  deriving DecidableEq, Repr

/-- Why the machine stops with a fault: NEVER. The spec has no error that halts the block (R185, R206), so there is no
constructor; nothing raises it. -/
inductive Fault where
  deriving DecidableEq, Repr

/-- Why a step has no meaning. -/
inductive Refusal where
  /-- An instruction without a meaning yet; no arm of `exec` answers it. Safe. -/
  | notModelled (mnemonic : String)
  /-- Raised by `step` when the request offered is no instruction (93 U9: "refuse"). Safe: the spec gives it no
  effect. -/
  | badRequest (why : DecodeError)
  /-- Raised by RTX_EXPIRE and SYNC_EXPIRE while their timer's flag is 0: "an expiry with its flag at 0 is not an
  enabled step" (93 U14, R52). Safe. -/
  | expiryNotEnabled (which : Timer)
  deriving DecidableEq, Repr

/-- The state. The first four groups are the spec's (R10); the last is the model's own: the environment's inputs and
the outputs of the last step. -/
structure State where
  /-- `link_state` (R22). -/
  linkState : LinkState
  /-- `sync_retry` (R26). -/
  syncRetry : Nat
  /-- `sync_timer_armed` (R25). -/
  syncTimerArmed : Bool
  /-- `rtx_timer_armed` (R24). -/
  rtxTimerArmed : Bool
  /-- `crc_tx_enable` (R23). -/
  crcTxEnable : Bool
  /-- `next_tx_seq` (R11). -/
  nextTxSeq : SeqNum
  /-- `expected_rx_seq` (R12). -/
  expectedRxSeq : SeqNum
  /-- `last_peer_ack` (R13). -/
  lastPeerAck : SeqNum
  /-- `ack_pending` (R14). -/
  ackPending : Bool
  /-- `pend_unrel_q` (R29), head first. -/
  pendUnrelQ : List TxEntry
  /-- `pend_rel_q` (R29), head first. -/
  pendRelQ : List TxEntry
  /-- `unack_q` (R29), oldest first. -/
  unackQ : List TxEntry
  /-- `esc_state` (R20). -/
  escState : EscState
  /-- `rx_state` (R21). -/
  rxState : RxState
  /-- `rx_hdr` (R15). -/
  rxHdr : List Byte
  /-- `rx_len` (R16). -/
  rxLen : PLen
  /-- `rx_buf` (R17). -/
  rxBuf : List Byte
  /-- `rx_crc` (R18). -/
  rxCrc : List Byte
  /-- Whether a receive buffer is held: acquired by R115 and neither freed nor handed on (R107). -/
  rxHeld : Bool
  /-- `inbound_q` (R31), oldest first. -/
  inboundQ : List RxEntry
  /-- `rx_id_next` (R31). -/
  rxIdNext : Nat
  /-- The static configuration (R27). -/
  params : Params
  /-- The model's own: the inputs to come, the next one first: the requests the agents will offer (R4, R52; log entry 3), and
  hardware resets among them (R215; log entry 11). -/
  sched : List Input
  /-- The model's own: the Packet Pool's answers to the coming `acquire` calls, next first (R46; log entry 1). -/
  poolAnswers : List Bool
  /-- The model's own: how many answers were drawn from `Config.poolAnswer` (log entry 1). -/
  poolDraws : Nat
  /-- The model's own: the output events of the latest step, in the order emitted (R36; log entry 6). -/
  out : List Event
  deriving DecidableEq, Repr

/-- The machine right after hardware reset (R38, R215), with the parameters of R6 and no input offered. A hardware reset of a
running block, which keeps its parameters, is `hardwareReset`. -/
def State.reset : State where
  linkState := .idle
  syncRetry := 0
  syncTimerArmed := false
  rtxTimerArmed := false
  crcTxEnable := false
  nextTxSeq := 0
  expectedRxSeq := 0
  lastPeerAck := 0
  ackPending := false
  pendUnrelQ := []
  pendRelQ := []
  unackQ := []
  escState := .noesc
  rxState := .waitDelimiter
  rxHdr := []
  rxLen := 0
  rxBuf := []
  rxCrc := []
  rxHeld := false
  inboundQ := []
  rxIdNext := 0
  params := Params.standard
  sched := []
  poolAnswers := []
  poolDraws := 0
  out := []

end Sys2Proof.Machine
end

