-- ==== Sys2Proof/Machine/Ops.lean ====
section
/-! DEFINITION. The shared operations on the state: output events, the Packet Pool, buffers and queues (20_memory R45 to
R47), resetting the receive assembler (R107), the error actions (60_exceptions R185: the block's counterpart of taking an
exception), the reset values (R38), the hardware reset (R215, R216), and fetching the next input (R52). -/

namespace Sys2Proof.Machine

/-- `emit EVENT` (R9). -/
def State.emit (s : State) (e : Event) : State := { s with out := s.out ++ [e] }

/-- The start of an operation: its output list is empty (R36). -/
def State.begin (s : State) : State := { s with out := [] }

/-! ### The Packet Pool (R46, R47, R209) -/

/-- `acquire(n)`: the environment's answer, `true` for `ok`. The answers put in the state come first; after them the
answers are `Config.poolAnswer`, one for each call (R46, 93 U1; log entry 1). R46 names the `header_reserve` of the receive call
only; that SUBMIT and LC_SEND carry `HEADER_RESERVE` too is a DESIGN CHOICE (log entry 17). -/
def acquire (n : Nat) (s : State) : Bool × State :=
  let s := s.emit (.pool (.acquire n s.params.headerReserve))
  match s.poolAnswers with
  | answer :: rest => (answer, { s with poolAnswers := rest })
  | [] => (Config.poolAnswer s.poolDraws, { s with poolDraws := s.poolDraws + 1 })

/-- `free(buf)`; it never fails (R47). -/
def free (buffer : List Byte) (s : State) : State := s.emit (.pool (.release buffer))

/-- `RELEASE_TX(e)`: the end of a transmit entry's life (R47). -/
def releaseTx (e : TxEntry) (s : State) : State :=
  if e.callerOwned then s.emit (.txComplete e.tag) else free e.payload s

/-- `RELEASE_TX` for each entry of a list, in order (R141, R180). -/
def releaseAll : List TxEntry → State → State
  | [], s => s
  | e :: es, s => releaseAll es (releaseTx e s)

/-- `free` for the payload of each entry of a list, in order (R180 step 3). -/
def freeAll : List RxEntry → State → State
  | [], s => s
  | e :: es, s => freeAll es (free e.payload s)

/-- Free the receive buffer if one is held (R107, R122). -/
def freeRxBuffer (s : State) : State :=
  if s.rxHeld then { free s.rxBuf s with rxHeld := false } else s

/-! ### Queues (R45) -/

/-- `enq_tail(q, e)`. -/
def enqTail {α : Type} (q : List α) (e : α) : List α := q ++ [e]

/-- `enq_head_all(q, es)`. -/
def enqHeadAll {α : Type} (q es : List α) : List α := es ++ q

/-! ### The receive assembler's reset (R107) -/

/-- `RX_RESET(target)` (R107). -/
def rxReset (target : RxState) (s : State) : State :=
  { freeRxBuffer s with
    rxState := target
    escState := .noesc
    rxHdr := []
    rxBuf := []
    rxCrc := []
    rxLen := 0 }

/-! ### Errors: the two actions of R185. There is no return from an error (R207). -/

/-- A silent drop of the frame being received: `DIAG(code)`, then the assembler is reset (R185 (a)). -/
def dropFrame (code : ErrCode) (target : RxState) (s : State) : State := rxReset target (s.emit (.diag code))

/-- A synchronous result, `RESULT(code)`; nothing else changes (R185 (b)). -/
def answer (code : ErrCode) (s : State) : State := s.emit (.result code)

/-- The number of an error code (R186). -/
def ErrCode.number : ErrCode → Nat
  | .ok => 0
  | .framingError => 1
  | .headerChecksumError => 2
  | .outOfOrderSequence => 3
  | .crcMismatch => 4
  | .allocationFailure => 5
  | .syncRetriesExhausted => 6
  | .payloadTooLarge => 7
  | .linkControlProtocolError => 8
  | .linkNotActive => 9
  | .notOpen => 10
  | .alreadyOpen => 11
  | .invalidAck => 12
  | .unknownHandle => 13
  | .invalidPacketType => 14

/-! ### Numeric encodings of the sequencing registers (R20 to R22, decision D35; not observable) -/

/-- `esc_state` as one bit (R20). -/
def EscState.code : EscState → BitVec 1
  | .noesc => 0
  | .esc => 1

/-- `rx_state` as three bits (R21). -/
def RxState.code : RxState → BitVec 3
  | .waitDelimiter => 0
  | .waitFrameStart => 1
  | .waitHeader => 2
  | .waitPayload => 3
  | .waitCrc => 4

/-- `link_state` as two bits (R22). -/
def LinkState.code : LinkState → BitVec 2
  | .idle => 0
  | .syncing => 1
  | .configuring => 2
  | .active => 3

/-! ### Reset values (R38) -/

/-- Every register and queue at its reset value: the values of R38, which hold after hardware reset, after CLOSE and in
the first half of OPEN (R215). The static configuration (R216) and the model's own fields are kept. -/
def State.resetRegs (s : State) : State :=
  { State.reset with
    params := s.params
    sched := s.sched
    poolAnswers := s.poolAnswers
    poolDraws := s.poolDraws
    out := s.out }

/-- A hardware reset of the running block (R215 (a)): the values of R38. It touches neither the static configuration nor the
Packet Pool nor the Timer service, and it frees no buffer and completes no entry (R216): no output event. Log entry 11. -/
def hardwareReset (s : State) : State := s.begin.resetRegs

/-! ### The next input (R4, R52) -/

/-- The next input of the schedule, and the state without it. -/
def fetch (s : State) : Option (Input × State) :=
  match s.sched with
  | [] => none
  | input :: rest => some (input, { s with sched := rest })

end Sys2Proof.Machine
end

