-- ==== Sys2Proof/Machine/Flags.lean ====
section
/-! DEFINITION. The four flags (10_state R14, R23 to R25) with the Timer service calls their writes stand for (R36, R208),
and the two checks whose outcome decides a frame's fate: the CRC (30_encoding R67) and, in Operands, the header checksum
(R64). -/

namespace Sys2Proof.Machine

/-! ### Timer flags (R24, R25, R204, R205) -/

/-- Start the sync timer (R157). -/
def startSyncTimer (s : State) : State :=
  { s.emit (.timer .sync (.start s.params.syncInterval)) with syncTimerArmed := true }

/-- Re-arm the sync timer (R163). -/
def restartSyncTimer (s : State) : State :=
  { s.emit (.timer .sync (.restart s.params.syncInterval)) with syncTimerArmed := true }

/-- Stop the sync timer (R169, R180). -/
def stopSyncTimer (s : State) : State := { s.emit (.timer .sync .stop) with syncTimerArmed := false }

/-- Start the retransmission timer (R169). -/
def startRtxTimer (s : State) : State :=
  { s.emit (.timer .rtx (.start s.params.rtxInterval)) with rtxTimerArmed := true }

/-- (Re)start the retransmission timer (R136). -/
def restartRtxTimer (s : State) : State :=
  { s.emit (.timer .rtx (.restart s.params.rtxInterval)) with rtxTimerArmed := true }

/-- Stop the retransmission timer (R141, R180). -/
def stopRtxTimer (s : State) : State := { s.emit (.timer .rtx .stop) with rtxTimerArmed := false }

/-! ### The CRC (R67) -/

/-- The nibble table `T[0..15]` (R67). -/
def crcTable : List Word16 :=
  [0x0000, 0x1081, 0x2102, 0x3183, 0x4204, 0x5285, 0x6306, 0x7387,
   0x8408, 0x9489, 0xa50a, 0xb58b, 0xc60c, 0xd68d, 0xe70e, 0xf78f]

/-- `T[v & 0xF]` for a 16-bit `v` (R67). -/
def crcEntry (v : Word16) : Word16 := crcTable.getD (v.setWidth 4).toNat 0

/-- The register after one nibble, the low one of `d`: `(reg >> 4) ^ T[(reg ^ d) & 0xF]` (R67). -/
def crcNibble (reg d : Word16) : Word16 := (reg >>> 4) ^^^ crcEntry (reg ^^^ d)

/-- The register after one byte, its low nibble first (R67). -/
def crcByte (reg : Word16) (d : Byte) : Word16 :=
  crcNibble (crcNibble reg (d.setWidth 16)) ((d >>> 4).setWidth 16)

/-- The register after a list of bytes, from `0xFFFF` (R67). -/
def crcReg (bytes : List Byte) : Word16 := bytes.foldl crcByte 0xFFFF

/-- `CRC16(bytes)`: the register, bit-reversed (R67). -/
def crc16 (bytes : List Byte) : Word16 := (crcReg bytes).reverse

/-- The trailer of a body: the CRC, high byte first (R67). -/
def crcTrailer (body : List Byte) : List Byte :=
  [(crc16 body).extractLsb' 8 8, (crc16 body).extractLsb' 0 8]

/-- The receiver's reading of two trailer bytes: `(t0 << 8) | t1` (R67, R119). -/
def trailerValue (t0 t1 : Byte) : Word16 := (t0.setWidth 16 <<< 8) ||| t1.setWidth 16

end Sys2Proof.Machine
end

