-- ==== Sys2Proof/Machine/Codec.lean ====
section
/-! DEFINITION. The Byte Codec: encoding a frame body into wire bytes and decoding one wire byte (40_byte_codec R90 to
R104). -/

namespace Sys2Proof.Machine

/-- `ESC_MAP(b)` with `SW_FLOW_ESCAPE = sw` (R92). -/
def escMap (sw : Bool) (b : Byte) : List Byte :=
  if b = Config.delimByte then [Config.escByte, codeDelim]
  else if b = Config.escByte then [Config.escByte, codeEsc]
  else if sw && b == xonByte then [Config.escByte, codeXon]
  else if sw && b == xoffByte then [Config.escByte, codeXoff]
  else [b]

/-- Every byte of a body through `ESC_MAP`, in order. -/
def escBody (sw : Bool) : List Byte → List Byte
  | [] => []
  | b :: bs => escMap sw b ++ escBody sw bs

/-- `ENCODE(body)`: the escaped body between two delimiters (R91). -/
def encodeFrame (sw : Bool) (body : List Byte) : List Byte :=
  [Config.delimByte] ++ escBody sw body ++ [Config.delimByte]

/-- The result of decoding one byte (R95). -/
inductive DecodeResult where
  | nothing
  | byte (v : Byte)
  | delim
  | error
  | errorDelim
  deriving DecidableEq, Repr

/-- The second byte of an escape (R97 to R99, R101 to R104); all four codes always (decision D13). -/
def unescape (b : Byte) : DecodeResult :=
  if b = codeDelim then .byte Config.delimByte
  else if b = codeEsc then .byte Config.escByte
  else if b = codeXon then .byte xonByte
  else if b = codeXoff then .byte xoffByte
  else if b = Config.delimByte then .errorDelim
  else .error

/-- `DECODE_BYTE(b)`: the result and the decoder's next state (R95 to R100). -/
def decodeByte (e : EscState) (b : Byte) : DecodeResult × EscState :=
  match e with
  | .noesc =>
    if b = Config.delimByte then (.delim, .noesc)
    else if b = Config.escByte then (.nothing, .esc)
    else (.byte b, .noesc)
  | .esc => (unescape b, .noesc)

/-- The pure decoder of R94: the bytes between the delimiters, the emitted bytes collected; `none` when a byte gives
anything but a body byte or nothing, or when the input ends inside an escape. -/
def decodeBody (e : EscState) : List Byte → Option (List Byte)
  | [] => if e = .noesc then some [] else none
  | b :: bs =>
    match decodeByte e b with
    | (.nothing, e') => decodeBody e' bs
    | (.byte v, e') => (decodeBody e' bs).map (v :: ·)
    | _ => none

end Sys2Proof.Machine
end

