-- ==== Sys2Proof/Machine/Arq.lean ====
section
/-! DEFINITION. The ARQ Engine (42_arq_engine): FRAME_BUILD, PRUNE, and the operations SUBMIT, RELEASE, TX_PULL and
RTX_EXPIRE. -/

namespace Sys2Proof.Machine

/-! ### FRAME_BUILD (R139) -/

/-- The body of a frame: header, payload, and the CRC trailer when `crc` is set (R60, R139). The length field takes the
low 12 bits of the payload's length, which is at most 4095 for every entry the block holds. -/
def frameBody (ack : SeqNum) (crc : Bool) (ptype : PType) (rel : Bool) (seq : SeqNum) (payload : List Byte) :
    List Byte :=
  let body := hdrBuild seq ack crc rel ptype (BitVec.ofNat 12 payload.length) ++ payload
  if crc then body ++ crcTrailer body else body

/-- `FRAME_BUILD(ptype, rel, seq, payload)`: the wire bytes, with the acknowledgment and CRC setting of this moment (R139,
R54). -/
def frameBytes (s : State) (ptype : PType) (rel : Bool) (seq : SeqNum) (payload : List Byte) : List Byte :=
  encodeFrame s.params.swFlowEscape (frameBody s.expectedRxSeq s.crcTxEnable ptype rel seq payload)

/-- What FRAME_BUILD writes: every frame clears `ack_pending` (R139, decision D14). -/
def State.clearAckPending (s : State) : State := { s with ackPending := false }

/-! ### PRUNE (R141) -/

/-- The `j` in `0..n` with `a = (next_tx_seq - j) mod 8`, if there is one (R141). -/
def ackIndex (next a : SeqNum) (n : Nat) : Option Nat :=
  (List.range (n + 1)).find? fun j => a == next - BitVec.ofNat 3 j

/-- `PRUNE(a)` (R141). -/
def prune (a : SeqNum) (s : State) : State :=
  let n := s.unackQ.length
  let s :=
    match ackIndex s.nextTxSeq a n with
    | some j =>
      let k := n - j
      { releaseAll (s.unackQ.take k) s with unackQ := s.unackQ.drop k }
    | none => s.emit (.diag .invalidAck)
  if s.unackQ = [] then stopRtxTimer s else s

/-! ### SUBMIT (R130, R131) -/

/-- The packet types SUBMIT admits: 1 to 4 (R130, decision D31). -/
def submittable (ptype : PType) : Bool := decide (1 ≤ ptype.toNat ∧ ptype.toNat ≤ 4)

/-- A rejected SUBMIT: a payload that is not caller-owned is freed, and the result is returned (R130). -/
def rejectSubmit (code : ErrCode) (payload : List Byte) (callerOwned : Bool) (s : State) : State :=
  answer code (if callerOwned then s else free payload s)

/-- The enqueueing half of SUBMIT (R131). -/
def enqueueSubmit (e : TxEntry) (s : State) : State :=
  answer .ok (if e.reliable then { s with pendRelQ := enqTail s.pendRelQ e }
    else { s with pendUnrelQ := enqTail s.pendUnrelQ e })

/-- SUBMIT's checks, in the order of R130. -/
def submitOp (ptype : PType) (reliable : Bool) (payload : List Byte) (callerOwned : Bool) (tag : Nat) (s : State) :
    State :=
  if s.linkState = .idle then rejectSubmit .notOpen payload callerOwned s
  else if s.linkState ≠ .active then rejectSubmit .linkNotActive payload callerOwned s
  else if !submittable ptype then rejectSubmit .invalidPacketType payload callerOwned s
  else if payload.length > Config.maxPayload then rejectSubmit .payloadTooLarge payload callerOwned s
  else
    match acquire payload.length s with
    | (false, s) => rejectSubmit .allocationFailure payload callerOwned s
    | (true, s) =>
      enqueueSubmit
        { ptype := ptype, reliable := reliable, payload := payload, callerOwned := callerOwned, tag := some tag, seq := 0 } s

/-- SUBMIT (R130). -/
def execSubmit (ptype : PType) (reliable : Bool) (payload : List Byte) (callerOwned : Bool) (tag : Nat) (s : State) :
    Host.Outcome State Fault Refusal :=
  .next (submitOp ptype reliable payload callerOwned tag s.begin)

/-! ### TX_PULL (R134 to R139) -/

/-- Branch 1: the head of `pend_unrel_q`, sent once and released (R135). -/
def pullUnreliable (e : TxEntry) (rest : List TxEntry) (s : State) : State :=
  let frame := frameBytes s e.ptype false 0 e.payload
  (releaseTx e { s.clearAckPending with pendUnrelQ := rest }).emit (.txFrame frame)

/-- Branch 2: the head of `pend_rel_q` takes the next sequence number and moves to `unack_q` (R136). -/
def pullReliable (e : TxEntry) (rest : List TxEntry) (s : State) : State :=
  let e := { e with seq := s.nextTxSeq }
  let frame := frameBytes s e.ptype true e.seq e.payload
  let s := restartRtxTimer
    { s with pendRelQ := rest, nextTxSeq := s.nextTxSeq + 1, unackQ := enqTail s.unackQ e }
  s.clearAckPending.emit (.txFrame frame)

/-- Branch 3: a zero-length ACK-only frame (R137). -/
def pullAck (s : State) : State := s.clearAckPending.emit (.txFrame (frameBytes s ptAck false 0 []))

/-- Whether branch 3 may run, by link state: in ACTIVE it does (R134, R200), in IDLE nothing does. In SYNCING and CONFIGURING R134
runs it and R200's table does not: a free value (DESIGN CHOICE, log entry 18). -/
def ackAllowed : LinkState → Bool
  | .idle => false
  | .syncing => Config.ackBeforeActive
  | .configuring => Config.ackBeforeActive
  | .active => true

/-- Branches 3 and 4: an owed acknowledgment where it may go out, else NONE (R137, R138). -/
def pullAckOrNone (s : State) : State :=
  if s.ackPending && ackAllowed s.linkState then pullAck s else s.emit .txNone

/-- TX_PULL's branches, in the order of R134, gated by R200. -/
def pullOp (s : State) : State :=
  if s.linkState = .idle then s.emit .txNone
  else
    match s.pendUnrelQ with
    | e :: rest => pullUnreliable e rest s
    | [] =>
      match s.pendRelQ with
      | e :: rest =>
        if s.unackQ.length < Config.window then pullReliable e rest s
        else pullAckOrNone s
      | [] => pullAckOrNone s

/-- TX_PULL (R134). -/
def execTxPull (s : State) : Host.Outcome State Fault Refusal := .next (pullOp s.begin)

/-! ### RTX_EXPIRE (R145) -/

/-- Every unacknowledged entry back to the head of `pend_rel_q`, `next_tx_seq` rolled back (R145). -/
def rtxExpireOp (s : State) : State :=
  { s with
    rtxTimerArmed := false
    pendRelQ := enqHeadAll s.pendRelQ s.unackQ
    unackQ := []
    nextTxSeq := s.nextTxSeq - BitVec.ofNat 3 s.unackQ.length }

/-- RTX_EXPIRE, enabled only while its timer's flag is 1 (R145, R52, 93 U14). -/
def execRtxExpire (s : State) : Host.Outcome State Fault Refusal :=
  if s.rtxTimerArmed then .next (rtxExpireOp s.begin) else .refused (.expiryNotEnabled .rtx)

/-! ### RELEASE (R148) -/

/-- The first entry with this id out of a queue, the order of the others kept: its payload and the rest. -/
def takeEntry (id : Nat) : List RxEntry → Option (RxEntry × List RxEntry)
  | [] => none
  | e :: es =>
    if e.id = id then some (e, es)
    else (takeEntry id es).map fun (found, rest) => (found, e :: rest)

/-- RELEASE's body (R148). -/
def releaseOp (id : Nat) (s : State) : State :=
  if s.linkState = .idle then answer .notOpen s
  else
    match takeEntry id s.inboundQ with
    | none => answer .unknownHandle s
    | some (e, rest) => answer .ok (free e.payload { s with inboundQ := rest })

/-- RELEASE (R148). -/
def execRelease (id : Nat) (s : State) : Host.Outcome State Fault Refusal := .next (releaseOp id s.begin)

end Sys2Proof.Machine
end

