-- ==== Sys2Proof/Machine/Link.lean ====
section
/-! DEFINITION. The Link Controller (43_link_controller): LC_SEND, LC_RX, and the operations OPEN, CLOSE and SYNC_EXPIRE. -/

namespace Sys2Proof.Machine

/-! ### LC_SEND (R159) -/

/-- The transmit entry of a link-control message (R159). -/
def lcEntry (payload : List Byte) : TxEntry where
  ptype := ptLinkControl
  reliable := false
  payload := payload
  callerOwned := false
  tag := none
  seq := 0

/-- `LC_SEND(msg)` (R159). -/
def lcSend (m : LcMsg) (s : State) : State :=
  match acquire (lcPayload s.params m).length s with
  | (false, s) => s.emit (.diag .allocationFailure)
  | (true, s) => { s with pendUnrelQ := enqTail s.pendUnrelQ (lcEntry (lcPayload s.params m)) }

/-! ### LC_RX (R165) -/

/-- SYNC received (R167). -/
def rxSync (s : State) : State := lcSend .syncRsp s

/-- SYNC_RSP received (R169). -/
def rxSyncRsp (s : State) : State :=
  if s.linkState = .syncing then
    lcSend .config { startRtxTimer (stopSyncTimer s) with linkState := .configuring }
  else s

/-- CONFIG received (R173). -/
def rxConfig (s : State) : State :=
  match s.linkState with
  | .configuring => lcSend .config (lcSend .configRsp s)
  | .active => lcSend .configRsp s
  | .syncing => s
  | .idle => s

/-- CONFIG_RSP received, with its payload (R174). -/
def rxConfigRsp (payload : List Byte) (s : State) : State :=
  if s.linkState = .configuring then
    let crc :=
      match payload[2]? with
      | some cfg => cfgCrcEnabled cfg
      | none => s.crcTxEnable
    { s with crcTxEnable := crc, linkState := .active }.emit (.notify .active)
  else s

/-- UNKNOWN link-control message (R166). -/
def rxUnknown (s : State) : State := s.emit (.diag .linkControlProtocolError)

/-- `LC_RX(payload)` (R165). -/
def lcRx (payload : List Byte) (s : State) : State :=
  match lcClassify payload with
  | some .sync => rxSync s
  | some .syncRsp => rxSyncRsp s
  | some .config => rxConfig s
  | some .configRsp => rxConfigRsp payload s
  | none => rxUnknown s

/-! ### OPEN (R157) -/

/-- OPEN's body (R157). -/
def openOp (s : State) : State :=
  if s.linkState = .idle then
    answer .ok (startSyncTimer (lcSend .sync { s.resetRegs with linkState := .syncing }))
  else answer .alreadyOpen s

/-- OPEN (R157). -/
def execOpen (s : State) : Host.Outcome State Fault Refusal := .next (openOp s.begin)

/-! ### CLOSE (R180) -/

/-- CLOSE's body, its steps in the order of R180: timers, transmit entries, delivered entries, a half-received frame, reset. -/
def closeOp (s : State) : State :=
  if s.linkState = .idle then answer .notOpen s
  else
    let s1 := stopRtxTimer (stopSyncTimer s)
    let s2 := releaseAll (s.unackQ ++ s.pendRelQ ++ s.pendUnrelQ) s1
    let s3 := freeAll s.inboundQ s2
    let s4 := rxReset .waitDelimiter s3
    answer .ok s4.resetRegs

/-- CLOSE (R180). -/
def execClose (s : State) : Host.Outcome State Fault Refusal := .next (closeOp s.begin)

/-! ### SYNC_EXPIRE (R163) -/

/-- The retry counter's part of SYNC_EXPIRE: count, or notify and start over (R163). -/
def countSyncRetry (s : State) : State :=
  if s.syncRetry < s.params.syncRetryLimit then { s with syncRetry := s.syncRetry + 1 }
  else { s.emit (.notify .syncFail) with syncRetry := 0 }

/-- SYNC_EXPIRE's body (R163). -/
def syncExpireOp (s : State) : State := restartSyncTimer (lcSend .sync (countSyncRetry s))

/-- SYNC_EXPIRE, enabled only while its timer's flag is 1 (R163, R52, 93 U14). -/
def execSyncExpire (s : State) : Host.Outcome State Fault Refusal :=
  if s.syncTimerArmed then .next (syncExpireOp s.begin) else .refused (.expiryNotEnabled .sync)

end Sys2Proof.Machine
end

