-- ==== Sys2Proof/Machine/Receive.lean ====
section
/-! DEFINITION. The Receive Assembler (41_receive_assembler): RX_BYTE, its five states, the four header checks, payload and
CRC, and DELIVER. -/

namespace Sys2Proof.Machine

/-! ### DELIVER (R120 to R124) -/

/-- DELIVER step 1: commit the sequence number, record the acknowledgment, prune (R121). -/
def commitFrame (h : HdrFields) (s : State) : State :=
  let s := if h.reliable then { s with expectedRxSeq := h.seq + 1, ackPending := true } else s
  prune h.ack { s with lastPeerAck := h.ack }

/-- Delivery to the upper layer: a new inbound entry takes over the receive buffer (R123). -/
def deliverUp (ptype : PType) (s : State) : State :=
  let e : RxEntry := { id := s.rxIdNext, ptype := ptype, payload := s.rxBuf }
  { s with rxIdNext := s.rxIdNext + 1, inboundQ := enqTail s.inboundQ e, rxHeld := false }.emit
    (.onPacket e.id e.ptype e.payload)

/-- DELIVER step 2: classify by packet type (R122). -/
def classify (ptype : PType) (s : State) : State :=
  if ptype = ptAck then freeRxBuffer s
  else if ptype = ptLinkControl then freeRxBuffer (lcRx s.rxBuf s)
  else deliverUp ptype s

/-- `DELIVER` (R120 to R124). -/
def deliver (s : State) : State :=
  rxReset .waitDelimiter (classify (hdrType s.rxHdr) (commitFrame (hdrFields s.rxHdr) s))

/-! ### The fourth header byte (R112 to R118) -/

/-- Payload complete: wait for the CRC trailer if the frame has one, else deliver (R118). -/
def payloadComplete (s : State) : State :=
  if (hdrFields s.rxHdr).crcPresent then { s with rxState := .waitCrc, rxCrc := [] } else deliver s

/-- After the four checks (R115, R116). -/
def headerAccepted (len : PLen) (s : State) : State :=
  let s := { s with rxLen := len, rxHeld := true, rxBuf := [] }
  if len = 0 then payloadComplete s else { s with rxState := .waitPayload }

/-- `HEADER_COMPLETE`: the four checks in the order of R112 to R115, then R116. -/
def headerComplete (s : State) : State :=
  let h := hdrFields s.rxHdr
  if !checksumOk s.rxHdr then dropFrame .headerChecksumError .waitDelimiter s
  else if hdrType s.rxHdr ≠ ptLinkControl ∧ s.linkState ≠ .active then dropFrame .linkNotActive .waitDelimiter s
  else if h.reliable = true ∧ h.seq ≠ s.expectedRxSeq then dropFrame .outOfOrderSequence .waitDelimiter s
  else
    match acquire (h.len.toNat + Config.hdrLen) s with
    | (false, s) => dropFrame .allocationFailure .waitDelimiter s
    | (true, s) => headerAccepted h.len s

/-! ### Decoded bytes (R110, R117, R119) -/

/-- WAIT_HEADER, decoded byte `v` (R110). -/
def headerByte (v : Byte) (s : State) : State :=
  let s := { s with rxHdr := s.rxHdr ++ [v] }
  if s.rxHdr.length = Config.hdrLen then headerComplete s else s

/-- WAIT_PAYLOAD, decoded byte `v` (R117). -/
def payloadByte (v : Byte) (s : State) : State :=
  let s := { s with rxBuf := s.rxBuf ++ [v] }
  if s.rxBuf.length = s.rxLen.toNat then payloadComplete s else s

/-- The two trailer bytes against the CRC of header and payload (R119). -/
def crcComplete (s : State) : State :=
  if trailerValue (s.rxCrc.getD 0 0) (s.rxCrc.getD 1 0) ≠ crc16 (s.rxHdr ++ s.rxBuf) then
    dropFrame .crcMismatch .waitDelimiter s
  else deliver s

/-- WAIT_CRC, decoded byte `v` (R119). -/
def crcTrailerByte (v : Byte) (s : State) : State :=
  let s := { s with rxCrc := s.rxCrc ++ [v] }
  if s.rxCrc.length = Config.crcLen then crcComplete s else s

/-- A decoded body byte, by `rx_state` (R105, third arm). -/
def bodyByte (v : Byte) (s : State) : State :=
  match s.rxState with
  | .waitHeader => headerByte v s
  | .waitPayload => payloadByte v s
  | .waitCrc => crcTrailerByte v s
  | .waitDelimiter => s
  | .waitFrameStart => s

/-- A wire byte inside a frame: through the decoder, then R110, R117, R119 or R111. -/
def frameByte (b : Byte) (s : State) : State :=
  let (r, e) := decodeByte s.escState b
  let s := { s with escState := e }
  match r with
  | .nothing => s
  | .byte v => bodyByte v s
  | .error => dropFrame .framingError .waitDelimiter s
  | .delim => dropFrame .framingError .waitFrameStart s
  | .errorDelim => dropFrame .framingError .waitFrameStart s

/-! ### RX_BYTE (R105, R108, R109) -/

/-- The body of RX_BYTE (R105): WAIT_DELIMITER is R108, WAIT_FRAME_START is R109. -/
def receiveByte (b : Byte) (s : State) : State :=
  if s.linkState = .idle then s
  else
    match s.rxState with
    | .waitDelimiter => if b = Config.delimByte then { s with rxState := .waitFrameStart } else s
    | .waitFrameStart =>
      if b = Config.delimByte then s
      else frameByte b { s with rxState := .waitHeader, rxHdr := [], escState := .noesc }
    | .waitHeader => frameByte b s
    | .waitPayload => frameByte b s
    | .waitCrc => frameByte b s

/-- `RX_BYTES([b0, ..., bn])`: the bytes in order (R41, R77). -/
def receiveBytes : List Byte → State → State
  | [], s => s
  | b :: bs, s => receiveBytes bs (receiveByte b s)

/-- RX_BYTE (R105). -/
def execRxByte (b : Byte) (s : State) : Host.Outcome State Fault Refusal := .next (receiveByte b s.begin)

end Sys2Proof.Machine
end

