-- ==== Sys2Proof/Machine/WireCodes.lean ====
section
/-! DEFINITION. The wire codes as instructions: byte codes (R70), frames by packet type (R61, R65, R122) and link-control
messages (R71), each as the RX_BYTE operations its bytes make (R41, R77). -/

namespace Sys2Proof.Machine

/-- The bytes arrive on the receive stream, one RX_BYTE after the other, as one step (R41; log entry 7). -/
def receiveStep (wire : List Byte) (s : State) : Host.Outcome State Fault Refusal := .next (receiveBytes wire s.begin)

/-- The wire bytes of a frame from its opening delimiter to its last body byte, escaped as the pseudo-operation RX_FRAME
does (R77, `SW_FLOW_ESCAPE = 0`). -/
def openFrame (body : List Byte) : List Byte := Config.delimByte :: escBody false body

/-- A frame with this header and these further body bytes arrives, up to its last byte; its closing delimiter is a DELIM
code of its own (R60, R61; log entry 7). -/
def receiveFrame (ptype : PType) (h : HdrFields) (rest : List Byte) (s : State) : Host.Outcome State Fault Refusal :=
  receiveStep (openFrame (hdrBytes ptype h ++ rest)) s

/-- The wire bytes of `RX_LC(msg)`: `RX_FRAME(0, 0, 0, 0, 15, payload)` (R77). -/
def messageWire (payload : List Byte) : List Byte :=
  encodeFrame false (frameBody 0 false ptLinkControl false 0 payload)

/-- `RX_LC`: a link-control message arrives in a frame of its own (R77, R165). -/
def receiveMessage (payload : List Byte) (s : State) : Host.Outcome State Fault Refusal :=
  receiveStep (messageWire payload) s

/-! ### Byte codes -/

/-- DELIM, wire `C0` (R100). -/
def execDelim (s : State) : Host.Outcome State Fault Refusal := receiveStep [Config.delimByte] s

/-- ESC_DELIM, wire `DB DC` (R101). -/
def execEscDelim (s : State) : Host.Outcome State Fault Refusal := receiveStep [Config.escByte, codeDelim] s

/-- ESC_ESC, wire `DB DD` (R102). -/
def execEscEsc (s : State) : Host.Outcome State Fault Refusal := receiveStep [Config.escByte, codeEsc] s

/-- ESC_XON, wire `DB DE` (R103). -/
def execEscXon (s : State) : Host.Outcome State Fault Refusal := receiveStep [Config.escByte, codeXon] s

/-- ESC_XOFF, wire `DB DF` (R104). -/
def execEscXoff (s : State) : Host.Outcome State Fault Refusal := receiveStep [Config.escByte, codeXoff] s

/-- ESC_INVALID, wire `DB x` (R98). -/
def execEscInvalid (x : Byte) (s : State) : Host.Outcome State Fault Refusal := receiveStep [Config.escByte, x] s

/-- ESC_THEN_DELIM, wire `DB C0` (R99). -/
def execEscThenDelim (s : State) : Host.Outcome State Fault Refusal :=
  receiveStep [Config.escByte, Config.delimByte] s

/-- LITERAL, one byte (R96). -/
def execLiteral (b : Byte) (s : State) : Host.Outcome State Fault Refusal := receiveStep [b] s

/-! ### Frames by packet type (R65, R122) -/

/-- A frame of type ACK (0) (R122: the acknowledgment is taken, a payload is discarded). -/
def execHdrAck (h : HdrFields) (rest : List Byte) (s : State) : Host.Outcome State Fault Refusal :=
  receiveFrame 0 h rest s

/-- A frame of type COMMAND (1) (R122: delivered to the upper layer). -/
def execHdrCommand (h : HdrFields) (rest : List Byte) (s : State) : Host.Outcome State Fault Refusal :=
  receiveFrame 1 h rest s

/-- A frame of type ACL_DATA (2) (R122: delivered to the upper layer). -/
def execHdrAclData (h : HdrFields) (rest : List Byte) (s : State) : Host.Outcome State Fault Refusal :=
  receiveFrame 2 h rest s

/-- A frame of type SCO_DATA (3) (R122: delivered to the upper layer). -/
def execHdrScoData (h : HdrFields) (rest : List Byte) (s : State) : Host.Outcome State Fault Refusal :=
  receiveFrame 3 h rest s

/-- A frame of type EVENT (4) (R122: delivered to the upper layer). -/
def execHdrEvent (h : HdrFields) (rest : List Byte) (s : State) : Host.Outcome State Fault Refusal :=
  receiveFrame 4 h rest s

/-- A frame of type type 5 (5) (R122: delivered to the upper layer). -/
def execHdrType5 (h : HdrFields) (rest : List Byte) (s : State) : Host.Outcome State Fault Refusal :=
  receiveFrame 5 h rest s

/-- A frame of type type 6 (6) (R122: delivered to the upper layer). -/
def execHdrType6 (h : HdrFields) (rest : List Byte) (s : State) : Host.Outcome State Fault Refusal :=
  receiveFrame 6 h rest s

/-- A frame of type type 7 (7) (R122: delivered to the upper layer). -/
def execHdrType7 (h : HdrFields) (rest : List Byte) (s : State) : Host.Outcome State Fault Refusal :=
  receiveFrame 7 h rest s

/-- A frame of type type 8 (8) (R122: delivered to the upper layer). -/
def execHdrType8 (h : HdrFields) (rest : List Byte) (s : State) : Host.Outcome State Fault Refusal :=
  receiveFrame 8 h rest s

/-- A frame of type type 9 (9) (R122: delivered to the upper layer). -/
def execHdrType9 (h : HdrFields) (rest : List Byte) (s : State) : Host.Outcome State Fault Refusal :=
  receiveFrame 9 h rest s

/-- A frame of type type 10 (10) (R122: delivered to the upper layer). -/
def execHdrType10 (h : HdrFields) (rest : List Byte) (s : State) : Host.Outcome State Fault Refusal :=
  receiveFrame 10 h rest s

/-- A frame of type type 11 (11) (R122: delivered to the upper layer). -/
def execHdrType11 (h : HdrFields) (rest : List Byte) (s : State) : Host.Outcome State Fault Refusal :=
  receiveFrame 11 h rest s

/-- A frame of type type 12 (12) (R122: delivered to the upper layer). -/
def execHdrType12 (h : HdrFields) (rest : List Byte) (s : State) : Host.Outcome State Fault Refusal :=
  receiveFrame 12 h rest s

/-- A frame of type type 13 (13) (R122: delivered to the upper layer). -/
def execHdrType13 (h : HdrFields) (rest : List Byte) (s : State) : Host.Outcome State Fault Refusal :=
  receiveFrame 13 h rest s

/-- A frame of type type 14 (14) (R122: delivered to the upper layer). -/
def execHdrType14 (h : HdrFields) (rest : List Byte) (s : State) : Host.Outcome State Fault Refusal :=
  receiveFrame 14 h rest s

/-- A frame of type LINK_CONTROL (15) (R122: the payload goes to the link controller). -/
def execHdrLinkControl (h : HdrFields) (rest : List Byte) (s : State) : Host.Outcome State Fault Refusal :=
  receiveFrame 15 h rest s

/-! ### Link-control messages (R71) -/

/-- SYNC received (R167). -/
def execLcSync (params : List Byte) (s : State) : Host.Outcome State Fault Refusal :=
  receiveMessage (lcPair .sync ++ params) s

/-- SYNC_RSP received (R169). -/
def execLcSyncRsp (params : List Byte) (s : State) : Host.Outcome State Fault Refusal :=
  receiveMessage (lcPair .syncRsp ++ params) s

/-- CONFIG received (R173). -/
def execLcConfig (params : List Byte) (s : State) : Host.Outcome State Fault Refusal :=
  receiveMessage (lcPair .config ++ params) s

/-- CONFIG_RSP received; the first of `params` is its configuration byte (R174, R72). -/
def execLcConfigRsp (params : List Byte) (s : State) : Host.Outcome State Fault Refusal :=
  receiveMessage (lcPair .configRsp ++ params) s

/-- A message that is none of the four received (R166). -/
def execLcUnknown (payload : List Byte) (s : State) : Host.Outcome State Fault Refusal := receiveMessage payload s

end Sys2Proof.Machine
end

