-- ==== Sys2Proof/Machine/Dispatch.lean ====
section
/-! DEFINITION. The dispatch: one arm for each constructor of Instr, each one direct call of its meaning. -/

namespace Sys2Proof.Machine

def exec (i : Instr) (s : State) : Host.Outcome State Fault Refusal :=
  match i with
  | .delim => Sys2Proof.Machine.execDelim s
  | .escDelim => Sys2Proof.Machine.execEscDelim s
  | .escEsc => Sys2Proof.Machine.execEscEsc s
  | .escXon => Sys2Proof.Machine.execEscXon s
  | .escXoff => Sys2Proof.Machine.execEscXoff s
  | .escInvalid x => Sys2Proof.Machine.execEscInvalid x s
  | .escThenDelim => Sys2Proof.Machine.execEscThenDelim s
  | .literal b => Sys2Proof.Machine.execLiteral b s
  | .hdrAck h rest => Sys2Proof.Machine.execHdrAck h rest s
  | .hdrCommand h rest => Sys2Proof.Machine.execHdrCommand h rest s
  | .hdrAclData h rest => Sys2Proof.Machine.execHdrAclData h rest s
  | .hdrScoData h rest => Sys2Proof.Machine.execHdrScoData h rest s
  | .hdrEvent h rest => Sys2Proof.Machine.execHdrEvent h rest s
  | .hdrType5 h rest => Sys2Proof.Machine.execHdrType5 h rest s
  | .hdrType6 h rest => Sys2Proof.Machine.execHdrType6 h rest s
  | .hdrType7 h rest => Sys2Proof.Machine.execHdrType7 h rest s
  | .hdrType8 h rest => Sys2Proof.Machine.execHdrType8 h rest s
  | .hdrType9 h rest => Sys2Proof.Machine.execHdrType9 h rest s
  | .hdrType10 h rest => Sys2Proof.Machine.execHdrType10 h rest s
  | .hdrType11 h rest => Sys2Proof.Machine.execHdrType11 h rest s
  | .hdrType12 h rest => Sys2Proof.Machine.execHdrType12 h rest s
  | .hdrType13 h rest => Sys2Proof.Machine.execHdrType13 h rest s
  | .hdrType14 h rest => Sys2Proof.Machine.execHdrType14 h rest s
  | .hdrLinkControl h rest => Sys2Proof.Machine.execHdrLinkControl h rest s
  | .lcSync params => Sys2Proof.Machine.execLcSync params s
  | .lcSyncRsp params => Sys2Proof.Machine.execLcSyncRsp params s
  | .lcConfig params => Sys2Proof.Machine.execLcConfig params s
  | .lcConfigRsp params => Sys2Proof.Machine.execLcConfigRsp params s
  | .lcUnknown payload => Sys2Proof.Machine.execLcUnknown payload s
  | .openLink => Sys2Proof.Machine.execOpen s
  | .closeLink => Sys2Proof.Machine.execClose s
  | .submit ptype reliable payload callerOwned tag => Sys2Proof.Machine.execSubmit ptype reliable payload callerOwned tag s
  | .release id => Sys2Proof.Machine.execRelease id s
  | .rxByte b => Sys2Proof.Machine.execRxByte b s
  | .txPull => Sys2Proof.Machine.execTxPull s
  | .rtxExpire => Sys2Proof.Machine.execRtxExpire s
  | .syncExpire => Sys2Proof.Machine.execSyncExpire s

end Sys2Proof.Machine
end

