-- ==== Sys2Proof/Machine/Step.lean ====
section
/-! DEFINITION. One step of the machine: the next input of the schedule; a request is decoded and run (20_memory R50,
R52), a hardware reset done (70_reset_and_hazards R215, R216). -/

namespace Sys2Proof.Machine

/-- One step. With a request offered: the instruction it decodes to is run, or the step is refused by the decoder's reason.
With a hardware reset: its values (R215, R216; log entry 11). With nothing offered the block waits, with no effect and no output (R213; log entry 3). -/
def step (s : State) : Host.Outcome State Fault Refusal :=
  match fetch s with
  | none => .next s.begin
  | some (.hardwareReset, s) => .next (hardwareReset s)
  | some (.request r, s) =>
    match decode r with
    | .ok i => exec i s
    | .error why => .refused (.badRequest why)

/-- `s` with the instruction of this opcode-table word offered next (log entries 3 and 5). -/
def State.withFetchWord (s : State) (nbits w : Nat) : State :=
  { s with sched := .request (Request.ofTable nbits w) :: s.sched }

end Sys2Proof.Machine
end

