-- ==== Sys2Proof/Safety.lean ====
section
/-! DEFINITION. The terms in which claims speak of safe runs: the invariant of the reachable states (10_state R33 and the
ranges of R15 to R31), runs of several operations with their outputs in one list, and the wire bytes of each wire code. -/

namespace Sys2Proof.Machine

/-! ### The invariant -/

/-- The sequence numbers in flight are consecutive and end just before `next_tx_seq` (R33 item 2). -/
abbrev SeqsConsecutive (next : SeqNum) (q : List TxEntry) : Prop :=
  q.map (·.seq) = (List.range q.length).map fun i => next - BitVec.ofNat 3 q.length + BitVec.ofNat 3 i

/-- Every payload of a transmit queue fits a frame (R28). -/
abbrev PayloadsFit (q : List TxEntry) : Prop := ∀ e ∈ q, e.payload.length ≤ Config.maxPayload

/-- What the receive registers hold in each `rx_state` (R15 to R18, R33 items 7 and 8). -/
abbrev AssemblerOk (s : State) : Prop :=
  (s.rxState = .waitDelimiter ∨ s.rxState = .waitFrameStart →
    s.escState = .noesc ∧ s.rxHdr = [] ∧ s.rxLen = 0 ∧ s.rxBuf = [] ∧ s.rxCrc = [] ∧ s.rxHeld = false) ∧
  (s.rxState = .waitHeader →
    s.rxHdr.length < 4 ∧ s.rxLen = 0 ∧ s.rxBuf = [] ∧ s.rxCrc = [] ∧ s.rxHeld = false) ∧
  (s.rxState = .waitPayload →
    s.rxHdr.length = 4 ∧ s.rxBuf.length < s.rxLen.toNat ∧ s.rxCrc = [] ∧ s.rxHeld = true) ∧
  (s.rxState = .waitCrc →
    s.rxHdr.length = 4 ∧ s.rxBuf.length = s.rxLen.toNat ∧ s.rxCrc.length < 2 ∧ s.rxHeld = true)

/-- What holds of the header of a frame whose payload or trailer is being received: it passed the four checks, and what
they tested still stands when the frame is delivered (R112 to R114, R118, R121). -/
abbrev AcceptedHeader (s : State) : Prop :=
  checksumOk s.rxHdr = true ∧ s.rxLen = (hdrFields s.rxHdr).len ∧
  (hdrType s.rxHdr ≠ ptLinkControl → s.linkState = .active) ∧
  ((hdrFields s.rxHdr).reliable = true → (hdrFields s.rxHdr).seq = s.expectedRxSeq) ∧
  (s.rxState = .waitCrc → (hdrFields s.rxHdr).crcPresent = true)

/-- The invariant of the reachable states. -/
structure Inv (s : State) : Prop where
  /-- R33 item 1. -/
  window : s.unackQ.length ≤ Config.window
  /-- R33 item 2. -/
  seqs : SeqsConsecutive s.nextTxSeq s.unackQ
  /-- R33 item 3. -/
  unackReliable : ∀ e ∈ s.unackQ, e.reliable = true
  /-- R33 item 3. -/
  pendReliable : ∀ e ∈ s.pendRelQ, e.reliable = true
  /-- R33 item 3. -/
  pendUnreliable : ∀ e ∈ s.pendUnrelQ, e.reliable = false
  /-- R33 item 4: in IDLE every register and queue holds its reset value. -/
  idleReset : s.linkState = .idle → s.resetRegs = s
  /-- R33 item 5, and R200: nothing is delivered before ACTIVE. -/
  onlyActive : s.linkState ≠ .active → s.pendRelQ = [] ∧ s.unackQ = [] ∧ s.inboundQ = []
  /-- R130, R159, R200: before ACTIVE only link-control frames are queued. -/
  onlyLinkControl : s.linkState ≠ .active → ∀ e ∈ s.pendUnrelQ, e.ptype = ptLinkControl
  /-- R33 item 6. -/
  syncTimer : s.syncTimerArmed = true → s.linkState = .syncing
  /-- R200: RTX_EXPIRE is not enabled in IDLE and SYNCING. -/
  rtxTimer : s.rtxTimerArmed = true → s.linkState = .configuring ∨ s.linkState = .active
  /-- R174: the CRC setting is taken on entering ACTIVE. -/
  crcActive : s.crcTxEnable = true → s.linkState = .active
  /-- R33 items 7 and 8. -/
  assembler : AssemblerOk s
  /-- R112 to R114, R118, R121. -/
  accepted : s.rxState = .waitPayload ∨ s.rxState = .waitCrc → AcceptedHeader s
  /-- R26: legal values of `sync_retry`. -/
  syncRetry : s.syncRetry ≤ s.params.syncRetryLimit
  /-- R28. -/
  unackFit : PayloadsFit s.unackQ
  /-- R28. -/
  pendRelFit : PayloadsFit s.pendRelQ
  /-- R28. -/
  pendUnrelFit : PayloadsFit s.pendUnrelQ
  /-- R30. -/
  inboundFit : ∀ e ∈ s.inboundQ, e.payload.length ≤ Config.maxPayload
  /-- R30, R31: ids of live entries are distinct, and rise in delivery order. -/
  inboundIds : s.inboundQ.Pairwise fun a b => a.id < b.id
  /-- R31. -/
  inboundBelow : ∀ e ∈ s.inboundQ, e.id < s.rxIdNext

/-- Every register and queue holds the value of the table of R38; the three entries marked "OPEN:" there are given. -/
structure RegistersReset (link : LinkState) (syncTimer : Bool) (unrel : List TxEntry) (s : State) : Prop where
  linkState : s.linkState = link
  nextTxSeq : s.nextTxSeq = 0
  expectedRxSeq : s.expectedRxSeq = 0
  lastPeerAck : s.lastPeerAck = 0
  ackPending : s.ackPending = false
  crcTxEnable : s.crcTxEnable = false
  rtxTimerArmed : s.rtxTimerArmed = false
  syncTimerArmed : s.syncTimerArmed = syncTimer
  syncRetry : s.syncRetry = 0
  escState : s.escState = .noesc
  rxState : s.rxState = .waitDelimiter
  rxHdr : s.rxHdr = []
  rxBuf : s.rxBuf = []
  rxCrc : s.rxCrc = []
  rxLen : s.rxLen = 0
  unackQ : s.unackQ = []
  pendRelQ : s.pendRelQ = []
  inboundQ : s.inboundQ = []
  pendUnrelQ : s.pendUnrelQ = unrel
  rxIdNext : s.rxIdNext = 0

/-! ### Runs of several operations -/

/-- The operations in order, their outputs concatenated; stops at the first that has no next state. -/
def runOps : List Instr → State → Host.Outcome State Fault Refusal
  | [], s => .next s.begin
  | i :: is, s =>
    match exec i s with
    | .next t =>
      match runOps is t with
      | .next u => .next { u with out := t.out ++ u.out }
      | stop => stop
    | stop => stop

/-! ### Instructions by shape -/

/-- The sixteen header instructions with their packet types (R65). -/
def allFrames (h : HdrFields) (rest : List Byte) : List (PType × Instr) :=
  [(0, .hdrAck h rest), (1, .hdrCommand h rest), (2, .hdrAclData h rest), (3, .hdrScoData h rest),
   (4, .hdrEvent h rest), (5, .hdrType5 h rest), (6, .hdrType6 h rest), (7, .hdrType7 h rest),
   (8, .hdrType8 h rest), (9, .hdrType9 h rest), (10, .hdrType10 h rest), (11, .hdrType11 h rest),
   (12, .hdrType12 h rest), (13, .hdrType13 h rest), (14, .hdrType14 h rest), (15, .hdrLinkControl h rest)]

/-- The fourteen of them that are delivered to the upper layer: COMMAND, ACL_DATA, SCO_DATA, EVENT and types 5 to 14
(R122). -/
def ordinaryFrames (h : HdrFields) (rest : List Byte) : List (PType × Instr) :=
  [(1, .hdrCommand h rest), (2, .hdrAclData h rest), (3, .hdrScoData h rest),
   (4, .hdrEvent h rest), (5, .hdrType5 h rest), (6, .hdrType6 h rest), (7, .hdrType7 h rest),
   (8, .hdrType8 h rest), (9, .hdrType9 h rest), (10, .hdrType10 h rest), (11, .hdrType11 h rest),
   (12, .hdrType12 h rest), (13, .hdrType13 h rest), (14, .hdrType14 h rest)]

/-- The five byte codes that stand for one body byte, with that byte (R96, R101 to R104). -/
def bodyCodes (b : Byte) : List (Instr × Byte) :=
  [(.escDelim, 0xC0), (.escEsc, 0xDB), (.escXon, 0x11), (.escXoff, 0x13), (.literal b, b)]

/-- The wire bytes of a wire code (R60, R70, R77); none for a command. -/
def wireBytes : Instr → Option (List Byte)
  | .delim => some [0xC0]
  | .escDelim => some [0xDB, 0xDC]
  | .escEsc => some [0xDB, 0xDD]
  | .escXon => some [0xDB, 0xDE]
  | .escXoff => some [0xDB, 0xDF]
  | .escInvalid x => some [0xDB, x]
  | .escThenDelim => some [0xDB, 0xC0]
  | .literal b => some [b]
  | .hdrAck h rest => some (openFrame (hdrBytes 0 h ++ rest))
  | .hdrCommand h rest => some (openFrame (hdrBytes 1 h ++ rest))
  | .hdrAclData h rest => some (openFrame (hdrBytes 2 h ++ rest))
  | .hdrScoData h rest => some (openFrame (hdrBytes 3 h ++ rest))
  | .hdrEvent h rest => some (openFrame (hdrBytes 4 h ++ rest))
  | .hdrType5 h rest => some (openFrame (hdrBytes 5 h ++ rest))
  | .hdrType6 h rest => some (openFrame (hdrBytes 6 h ++ rest))
  | .hdrType7 h rest => some (openFrame (hdrBytes 7 h ++ rest))
  | .hdrType8 h rest => some (openFrame (hdrBytes 8 h ++ rest))
  | .hdrType9 h rest => some (openFrame (hdrBytes 9 h ++ rest))
  | .hdrType10 h rest => some (openFrame (hdrBytes 10 h ++ rest))
  | .hdrType11 h rest => some (openFrame (hdrBytes 11 h ++ rest))
  | .hdrType12 h rest => some (openFrame (hdrBytes 12 h ++ rest))
  | .hdrType13 h rest => some (openFrame (hdrBytes 13 h ++ rest))
  | .hdrType14 h rest => some (openFrame (hdrBytes 14 h ++ rest))
  | .hdrLinkControl h rest => some (openFrame (hdrBytes 15 h ++ rest))
  | .lcSync params => some (messageWire (0x01 :: 0x7E :: params))
  | .lcSyncRsp params => some (messageWire (0x02 :: 0x7D :: params))
  | .lcConfig params => some (messageWire (0x03 :: 0xFC :: params))
  | .lcConfigRsp params => some (messageWire (0x04 :: 0x7B :: params))
  | .lcUnknown payload => some (messageWire payload)
  | .openLink => none
  | .closeLink => none
  | .submit _ _ _ _ _ => none
  | .release _ => none
  | .rxByte _ => none
  | .txPull => none
  | .rtxExpire => none
  | .syncExpire => none

/-! ### Parts of the state -/

/-- The assembler stands between frames (R106). -/
abbrev AtBoundary (s : State) : Prop := s.rxState = .waitDelimiter ∨ s.rxState = .waitFrameStart

/-- A frame is being received (R106). -/
abbrev InFrame (s : State) : Prop :=
  s.rxState = .waitHeader ∨ s.rxState = .waitPayload ∨ s.rxState = .waitCrc

/-- The ARQ counters, flags and queues and the link controller's registers are the same in both states (R10). -/
structure SameArqLink (s t : State) : Prop where
  linkState : t.linkState = s.linkState
  syncRetry : t.syncRetry = s.syncRetry
  syncTimerArmed : t.syncTimerArmed = s.syncTimerArmed
  rtxTimerArmed : t.rtxTimerArmed = s.rtxTimerArmed
  crcTxEnable : t.crcTxEnable = s.crcTxEnable
  nextTxSeq : t.nextTxSeq = s.nextTxSeq
  expectedRxSeq : t.expectedRxSeq = s.expectedRxSeq
  lastPeerAck : t.lastPeerAck = s.lastPeerAck
  ackPending : t.ackPending = s.ackPending
  pendUnrelQ : t.pendUnrelQ = s.pendUnrelQ
  pendRelQ : t.pendRelQ = s.pendRelQ
  unackQ : t.unackQ = s.unackQ
  inboundQ : t.inboundQ = s.inboundQ
  rxIdNext : t.rxIdNext = s.rxIdNext

/-- The receive registers are the same in both states (R15 to R21). -/
structure SameReceive (s t : State) : Prop where
  escState : t.escState = s.escState
  rxState : t.rxState = s.rxState
  rxHdr : t.rxHdr = s.rxHdr
  rxLen : t.rxLen = s.rxLen
  rxBuf : t.rxBuf = s.rxBuf
  rxCrc : t.rxCrc = s.rxCrc
  rxHeld : t.rxHeld = s.rxHeld

/-- The output events of ending these transmit entries, in order (R47). -/
def endEvents (es : List TxEntry) : List Event :=
  es.map fun e => if e.callerOwned then .txComplete e.tag else .pool (.release e.payload)

/-- The output of freeing the receive buffer, if one is held (R107). -/
def heldEvents (s : State) : List Event := if s.rxHeld then [.pool (.release s.rxBuf)] else []

/-- The body bytes after the header of a frame whose trailer, if it has one, is right (R60, R67). -/
def frameRest (ptype : PType) (h : HdrFields) (payload : List Byte) : List Byte :=
  payload ++ if h.crcPresent then crcTrailer (hdrBytes ptype h ++ payload) else []

/-- A frame with this header passes every header check when it arrives in `s` between two frames, and its payload has the
declared length (R112 to R115); the pool grants the buffer and `answers` are its answers after that. -/
structure PassesChecks (ptype : PType) (h : HdrFields) (length : Nat) (answers : List Bool) (s : State) : Prop where
  inv : Inv s
  isOpen : s.linkState ≠ .idle
  gate : ptype ≠ ptLinkControl → s.linkState = .active
  boundary : AtBoundary s
  checksum : h.checksum = rightChecksum ptype h
  sequence : h.reliable = true → h.seq = s.expectedRxSeq
  len : h.len.toNat = length
  pool : s.poolAnswers = true :: answers

/-- What DELIVER commits for an accepted frame before it classifies it (R121): the sequence number is advanced, the
acknowledgment recorded and the queue pruned. -/
def commits (h : HdrFields) (s : State) : State :=
  prune h.ack
    { s with
      expectedRxSeq := if h.reliable then h.seq + 1 else s.expectedRxSeq
      ackPending := s.ackPending || h.reliable
      lastPeerAck := h.ack }

/-- The same for a frame whose buffer was acquired in the same step, the receive registers aside. -/
def committed (h : HdrFields) (answers : List Bool) (s : State) : State :=
  commits h
    { s with
      poolAnswers := answers
      out := [.pool (.acquire (h.len.toNat + Config.hdrLen) s.params.headerReserve)] }

/-- The receive registers as they are between two frames, a delimiter awaited; nothing is freed here (R107). -/
def emptied (s : State) : State :=
  { s with
    rxState := .waitDelimiter
    escState := .noesc
    rxHdr := []
    rxLen := 0
    rxBuf := []
    rxCrc := []
    rxHeld := false }

/-- The outcome of an accepted frame at its last byte, by packet type (R121 to R124): committed; then an ACK's payload is freed,
a link-control message received and freed, or any other payload appended to `inbound_q` under the next id and reported. -/
def delivery (ptype : PType) (h : HdrFields) (payload : List Byte) (s : State) : State :=
  let p := commits h (emptied s)
  if ptype = ptAck then { p with out := p.out ++ [.pool (.release payload)] }
  else if ptype = ptLinkControl then
    { lcRx payload p with out := (lcRx payload p).out ++ [.pool (.release payload)] }
  else
    { p with
      inboundQ := p.inboundQ ++ [{ id := p.rxIdNext, ptype := ptype, payload := payload }]
      rxIdNext := p.rxIdNext + 1
      out := p.out ++ [.onPacket p.rxIdNext ptype payload] }

/-- A link-control message of this length can be received as `RX_LC` does: the link is open, the assembler is between two
frames, and the pool grants the frame's buffer (R77, R113, R115). -/
structure MessageArrives (length : Nat) (answers : List Bool) (s : State) : Prop where
  inv : Inv s
  isOpen : s.linkState ≠ .idle
  boundary : AtBoundary s
  fits : length ≤ Config.maxPayload
  pool : s.poolAnswers = true :: answers

/-- What is committed when `RX_LC` delivers a message of this length: its frame is unreliable with `ack = 0` (R77, R121). -/
def messageCommitted (length : Nat) (answers : List Bool) (s : State) : State :=
  prune 0
    { s with
      poolAnswers := answers
      lastPeerAck := 0
      out := [.pool (.acquire (length + Config.hdrLen) s.params.headerReserve)] }

/-- What LC_SEND adds to `pend_unrel_q` for this answer of the pool (R159). -/
def sent (ok : Bool) (payload : List Byte) : List TxEntry := if ok then [lcEntry payload] else []

/-- What LC_SEND emits (R159); the `header_reserve` of its acquire is log entry 17. -/
def sendEvents (s : State) (ok : Bool) (payload : List Byte) : List Event :=
  [.pool (.acquire payload.length s.params.headerReserve)] ++ if ok then [] else [.diag .allocationFailure]

/-- An entry with sequence number `seq` is older than the acknowledgment `a`, with `n` entries in flight before `next`:
`a` is one of the `n + 1` sensible values and `1 ≤ (a - seq) mod 8 ≤ n` (R141, "Equivalently"). -/
def olderThan (next a : SeqNum) (n : Nat) (seq : SeqNum) : Bool :=
  (List.range (n + 1)).any (fun j => a == next - BitVec.ofNat 3 j) &&
    decide (1 ≤ (a - seq).toNat ∧ (a - seq).toNat ≤ n)

end Sys2Proof.Machine
end

