-- ==== Sys2Proof/Certificates/Slice0/Obligations.lean ====
section
/-! DEFINITION. The statements for the provers, file by file of the spec. Where a statement fixes output events, the order
of events and the contents of TIMER and POOL events are those of log entries 6 and 8, and the `header_reserve` of an acquire is that
of log entry 17. Where a header row and a message row start and end is log entry 7; a refused expiry and a refused request are log
entry 10. -/

open Sys2Proof Sys2Proof.Machine

/-! ### Encodings (30_encoding) -/

/-- Decoding the encoding of a well-formed instruction gives the instruction, for every row and every operand. -/
def Obligations.DecodeOfEncodeIsIdentity : Prop :=
  ∀ i : Instr, i.wf = true → decode (encode i) = .ok i

/-- Every request the decoder accepts is the encoding of the instruction it gives: no bit of a code or operand is
dropped, and each instruction has one request. -/
def Obligations.EncodeOfDecodeIsIdentity : Prop :=
  ∀ (r : Request) (i : Instr), decode r = .ok i → encode i = r

/-- The decoder gives well-formed instructions only. -/
def Obligations.DecodedInstructionsAreWellFormed : Prop :=
  ∀ (r : Request) (i : Instr), decode r = .ok i → i.wf = true

/-- Words written out from the spec's encodings decode to their instructions (R61, R70, R71, R74), and an unassigned
command code to none. How a bare word is read (its format from its width, the byte code where the first byte is `0xDB`, operands
without bits taken as empty) is the model's choice, log entry 5. -/
def Obligations.WrittenOutWordsDecode : Prop :=
  decodeTableWord 8 0xC0 = some .delim ∧
  decodeTableWord 16 0xDBDC = some .escDelim ∧
  decodeTableWord 16 0xDB00 = some (.escInvalid 0x00) ∧
  decodeTableWord 8 0x7E = some (.literal 0x7E) ∧
  decodeTableWord 32 0xA2321219 =
    some (.hdrAclData { seq := 2, ack := 4, crcPresent := false, reliable := true, len := 0x123, checksum := 0x19 } []) ∧
  decodeTableWord 16 0x047B = some (.lcConfigRsp []) ∧
  decodeTableWord 16 0x05FA = some (.lcUnknown [0x05, 0xFA]) ∧
  decodeTableWord 4 0x5 = some .txPull ∧
  decode ⟨.cmd, [0x8], [], []⟩ = .error .unassignedCommand

/-- HDR_BUILD puts every field where R62 extracts it, with a right checksum, and a header has no spare bit: its type and
fields give all four bytes back (R61 to R64). -/
def Obligations.HeaderFieldsRoundTrip : Prop :=
  (∀ (seq ack : SeqNum) (crc rel : Bool) (ptype : PType) (len : PLen),
    hdrType (hdrBuild seq ack crc rel ptype len) = ptype ∧
    (∃ k, hdrFields (hdrBuild seq ack crc rel ptype len) =
      { seq := seq, ack := ack, crcPresent := crc, reliable := rel, len := len, checksum := k }) ∧
    checksumOk (hdrBuild seq ack crc rel ptype len) = true) ∧
  (∀ h0 h1 h2 h3 : Byte, hdrBytes (hdrType [h0, h1, h2, h3]) (hdrFields [h0, h1, h2, h3]) = [h0, h1, h2, h3]) ∧
  hdrBuild 2 4 false true 2 0x123 = [0xA2, 0x32, 0x12, 0x19]

/-- R64: the checksum test, its equivalent form, the detection of every single-bit change of any of the four bytes, and a
two-bit change that passes. -/
def Obligations.HeaderChecksumDetectsSingleBitChanges : Prop :=
  ∀ h0 h1 h2 h3 : Byte,
    (checksumOk [h0, h1, h2, h3] = true ↔ h3 = ~~~(h0 + h1 + h2)) ∧
    (checksumOk [h0, h1, h2, h3] = true ↔ h0 + h1 + h2 + h3 = 0xFF) ∧
    (checksumOk [h0, h1, h2, h3] = true →
      (∀ i bit : Nat, i < 4 → bit < 8 →
        checksumOk ([h0, h1, h2, h3].modify i fun b => b ^^^ ((1 : Byte) <<< bit)) = false) ∧
      checksumOk [h0 + 1, h1 - 1, h2, h3] = true)

/-- R68: the table as four shift steps of the reflected polynomial `0x8408`, and the CRC values the rule lists. -/
def Obligations.CrcTableAndKnownValues : Prop :=
  (∀ i : BitVec 4, crcEntry (i.setWidth 16) =
    (fun v : Word16 => (v >>> 1) ^^^ if v.getLsbD 0 then 0x8408 else 0)^[4] (i.setWidth 16)) ∧
  crc16 [] = 0xFFFF ∧
  crc16 [0x00] = 0xE1F0 ∧ crcReg [0x00] = 0x0F87 ∧
  crcReg [0x31, 0x32, 0x33, 0x34, 0x35, 0x36, 0x37, 0x38, 0x39] = 0x6F91 ∧
  crc16 [0x31, 0x32, 0x33, 0x34, 0x35, 0x36, 0x37, 0x38, 0x39] = 0x89F6 ∧
  crcReg [0x48, 0x00, 0x00, 0xB7] = 0x317A ∧ crc16 [0x48, 0x00, 0x00, 0xB7] = 0x5E8C ∧
  frameBody 1 true 0 false 0 [] = [0x48, 0x00, 0x00, 0xB7, 0x5E, 0x8C]

/-! ### The byte codec (40_byte_codec) -/

/-- R93, its five items: delimiters only at the two ends; every `0xDB` starts one of the four codes; no `0x11` and `0x13`
when flow-control escaping is on; the length; injectivity. -/
def Obligations.EncodedFrameShape : Prop :=
  ∀ (sw : Bool) (body : List Byte),
    (∃ mid, encodeFrame sw body = [0xC0] ++ mid ++ [0xC0] ∧ (0xC0 : Byte) ∉ mid) ∧
    (∀ front back, encodeFrame sw body = front ++ (0xDB : Byte) :: back →
      ∃ c tail, back = c :: tail ∧ c ∈ ([0xDC, 0xDD, 0xDE, 0xDF] : List Byte)) ∧
    (sw = true → (0x11 : Byte) ∉ encodeFrame sw body ∧ (0x13 : Byte) ∉ encodeFrame sw body) ∧
    (encodeFrame sw body).length =
      body.length + 2 + (body.filter fun b => (escMap sw b).length == 2).length ∧
    (∀ body', encodeFrame sw body = encodeFrame sw body' → body = body')

/-- R94: decoding what the encoder wrote between the delimiters gives the body back, for both values of
`SW_FLOW_ESCAPE`; the decoder does not know the encoder's value. -/
def Obligations.DecodingUndoesEncoding : Prop :=
  ∀ (sw : Bool) (p : List Byte), decodeBody .noesc ((encodeFrame sw p).drop 1).dropLast = some p

/-- DELIM in every receive state of an open link (R100, R108, R109, R111). -/
def Obligations.DelimFollowsReceiveState : Prop :=
  ∀ s : State, s.linkState ≠ .idle →
    (s.rxState = .waitDelimiter → exec .delim s = .next { s with rxState := .waitFrameStart, out := [] }) ∧
    (s.rxState = .waitFrameStart → exec .delim s = .next { s with out := [] }) ∧
    (InFrame s → exec .delim s = .next
      { s with
        rxState := .waitFrameStart
        escState := .noesc
        rxHdr := []
        rxLen := 0
        rxBuf := []
        rxCrc := []
        rxHeld := false
        out := .diag .framingError :: heldEvents s })

/-- The two invalid escapes: inside a frame, or as the first bytes of one, they abandon it, and the assembler waits for a
delimiter, or, when the second byte is itself a delimiter, for the next frame; outside a frame only that delimiter counts
(R98, R99, R108, R111). -/
def Obligations.InvalidEscapesAbandonTheFrame : Prop :=
  ∀ (x : Byte) (s : State), (Instr.escInvalid x).wf = true → s.linkState ≠ .idle →
    (s.rxState = .waitDelimiter →
      exec (.escInvalid x) s = .next { s with out := [] } ∧
      exec .escThenDelim s = .next { s with rxState := .waitFrameStart, out := [] }) ∧
    (s.rxState ≠ .waitDelimiter →
      exec (.escInvalid x) s = .next
        { s with
          rxState := .waitDelimiter
          escState := .noesc
          rxHdr := []
          rxLen := 0
          rxBuf := []
          rxCrc := []
          rxHeld := false
          out := .diag .framingError :: heldEvents s } ∧
      exec .escThenDelim s = .next
        { s with
          rxState := .waitFrameStart
          escState := .noesc
          rxHdr := []
          rxLen := 0
          rxBuf := []
          rxCrc := []
          rxHeld := false
          out := .diag .framingError :: heldEvents s })

/-- The five codes that stand for one body byte: discarded while a delimiter is awaited, the first header byte after one,
and inside a frame one body byte, stored while its field is not full (R96, R101 to R104, R108 to R110, R117, R119). -/
def Obligations.BodyCodesStoreTheirByte : Prop :=
  ∀ (b : Byte) (i : Instr) (v : Byte) (s : State), (i, v) ∈ bodyCodes b → i.wf = true → s.linkState ≠ .idle →
    (s.rxState = .waitDelimiter → exec i s = .next { s with out := [] }) ∧
    (s.rxState = .waitFrameStart →
      exec i s = .next { s with rxState := .waitHeader, escState := .noesc, rxHdr := [v], out := [] }) ∧
    (s.escState = .noesc →
      (InFrame s → exec i s = .next (bodyByte v { s with out := [] })) ∧
      (s.rxState = .waitHeader → s.rxHdr.length + 1 < 4 →
        exec i s = .next { s with rxHdr := s.rxHdr ++ [v], out := [] }) ∧
      (s.rxState = .waitPayload → s.rxBuf.length + 1 < s.rxLen.toNat →
        exec i s = .next { s with rxBuf := s.rxBuf ++ [v], out := [] }) ∧
      (s.rxState = .waitCrc → s.rxCrc = [] → exec i s = .next { s with rxCrc := [v], out := [] }))

/-! ### The receive assembler (41_receive_assembler) -/

/-- Every wire code is the run of RX_BYTE operations on its wire bytes, in every state, outputs in order (R41, R77). Which bytes a
header row and a message row stand for, where they start and end, is the model's choice, log entry 7. -/
def Obligations.WireCodesAreRxBytes : Prop :=
  ∀ (i : Instr) (wire : List Byte) (s : State), wireBytes i = some wire →
    exec i s = runOps (wire.map .rxByte) s

/-- RX_BYTE completes in every state of an open link and moves `rx_state` as the transition table says (R106). And from every state
inside a frame that meets the invariant, whatever other operations ran since the frame began, the byte that completes the header, the
payload or the trailer has its whole effect: the first failing check drops the frame, an accepted header awaits its body, a complete
payload its trailer, a wrong trailer drops the frame, and the last byte of an accepted frame delivers it (R112 to R124). -/
def Obligations.RxByteFollowsTransitionTable : Prop :=
  (∀ (s : State) (b : Byte), s.linkState ≠ .idle →
    ∃ t, exec (.rxByte b) s = .next t ∧
      (s.rxState = .waitDelimiter → t.rxState = if b = 0xC0 then .waitFrameStart else .waitDelimiter) ∧
      (s.rxState = .waitFrameStart → b = 0xC0 → t.rxState = .waitFrameStart) ∧
      (s.rxState = .waitFrameStart → b ≠ 0xC0 →
        exec (.rxByte b) s = exec (.rxByte b) { s with rxState := .waitHeader, rxHdr := [], escState := .noesc }) ∧
      (InFrame s → b = 0xC0 → t.rxState = .waitFrameStart ∧ .diag .framingError ∈ t.out) ∧
      (InFrame s → s.escState = .noesc → b = 0xDB → t.rxState = s.rxState ∧ t.escState = .esc) ∧
      (InFrame s → s.escState = .esc → b ∉ escapeSecondBytes →
        t.rxState = .waitDelimiter ∧ .diag .framingError ∈ t.out) ∧
      (∀ v e, decodeByte s.escState b = (.byte v, e) →
        (s.rxState = .waitHeader → s.rxHdr.length + 1 < 4 →
          t.rxState = .waitHeader ∧ t.rxHdr = s.rxHdr ++ [v]) ∧
        (s.rxState = .waitHeader → s.rxHdr.length + 1 = 4 →
          t.rxState = .waitPayload ∨ t.rxState = .waitCrc ∨ t.rxState = .waitDelimiter) ∧
        (s.rxState = .waitPayload → s.rxBuf.length + 1 < s.rxLen.toNat →
          t.rxState = .waitPayload ∧ t.rxBuf = s.rxBuf ++ [v]) ∧
        (s.rxState = .waitPayload → s.rxBuf.length + 1 = s.rxLen.toNat →
          t.rxState = .waitCrc ∨ t.rxState = .waitDelimiter) ∧
        (s.rxState = .waitCrc → s.rxCrc = [] → t.rxState = .waitCrc ∧ t.rxCrc = [v]) ∧
        (s.rxState = .waitCrc → s.rxCrc.length = 1 → t.rxState = .waitDelimiter))) ∧
  ∀ (s : State) (b v : Byte) (e : EscState), Inv s → s.linkState ≠ .idle → decodeByte s.escState b = (.byte v, e) →
    (s.rxState = .waitHeader → s.rxHdr.length + 1 = 4 →
      let hdr := s.rxHdr ++ [v]
      let h := hdrFields hdr
      let gate : Prop := hdrType hdr = 15 ∨ s.linkState = .active
      let inSequence : Prop := h.reliable = true → h.seq = s.expectedRxSeq
      let acquired : Event := .pool (.acquire (h.len.toNat + 4) s.params.headerReserve)
      (checksumOk hdr = false →
        exec (.rxByte b) s = .next { emptied s with out := [.diag .headerChecksumError] }) ∧
      (checksumOk hdr = true → ¬ gate → exec (.rxByte b) s = .next { emptied s with out := [.diag .linkNotActive] }) ∧
      (checksumOk hdr = true → gate → ¬ inSequence →
        exec (.rxByte b) s = .next { emptied s with out := [.diag .outOfOrderSequence] }) ∧
      (∀ answers, checksumOk hdr = true → gate → inSequence → s.poolAnswers = false :: answers →
        exec (.rxByte b) s = .next
          { emptied s with poolAnswers := answers, out := [acquired, .diag .allocationFailure] }) ∧
      (∀ answers, checksumOk hdr = true → gate → inSequence → s.poolAnswers = true :: answers →
        (h.len ≠ 0 ∨ h.crcPresent = true →
          exec (.rxByte b) s = .next
            { s with
              rxState := if h.len ≠ 0 then .waitPayload else .waitCrc
              escState := .noesc
              rxHdr := hdr
              rxLen := h.len
              rxHeld := true
              poolAnswers := answers
              out := [acquired] }) ∧
        (h.len = 0 → h.crcPresent = false →
          exec (.rxByte b) s = .next (delivery (hdrType hdr) h [] { s with poolAnswers := answers, out := [acquired] })))) ∧
    (s.rxState = .waitPayload → s.rxBuf.length + 1 = s.rxLen.toNat →
      let h := hdrFields s.rxHdr
      (h.crcPresent = true →
        exec (.rxByte b) s = .next
          { s with rxState := .waitCrc, escState := .noesc, rxBuf := s.rxBuf ++ [v], out := [] }) ∧
      (h.crcPresent = false →
        exec (.rxByte b) s = .next (delivery (hdrType s.rxHdr) h (s.rxBuf ++ [v]) { s with out := [] }))) ∧
    (s.rxState = .waitCrc → s.rxCrc.length + 1 = 2 →
      (s.rxCrc ++ [v] ≠ crcTrailer (s.rxHdr ++ s.rxBuf) →
        exec (.rxByte b) s = .next { emptied s with out := [.diag .crcMismatch, .pool (.release s.rxBuf)] }) ∧
      (s.rxCrc ++ [v] = crcTrailer (s.rxHdr ++ s.rxBuf) →
        exec (.rxByte b) s = .next (delivery (hdrType s.rxHdr) (hdrFields s.rxHdr) s.rxBuf { s with out := [] })))

/-- A header that passes the four checks, of any type, leaves its four bytes, its length and a held buffer, and the
assembler waits for the payload, or, when there is none, for the trailer (R115, R116, R118). -/
def Obligations.AcceptedHeaderAwaitsItsBody : Prop :=
  ∀ (h : HdrFields) (ptype : PType) (i : Instr) (answers : List Bool) (s : State), (ptype, i) ∈ allFrames h [] →
    PassesChecks ptype h h.len.toNat answers s → (h.len ≠ 0 ∨ h.crcPresent = true) →
    exec i s = .next
      { s with
        rxState := if h.len ≠ 0 then .waitPayload else .waitCrc
        rxHdr := hdrBytes ptype h
        rxLen := h.len
        rxHeld := true
        poolAnswers := answers
        out := [.pool (.acquire (h.len.toNat + 4) s.params.headerReserve)] }

/-- The four header checks, in their order: each drops the frame with its diagnostic, the rest of the frame is skipped, and
nothing else of the state changes (R112 to R115, R203 (b)). -/
def Obligations.HeaderChecksDropInOrder : Prop :=
  ∀ (h : HdrFields) (rest : List Byte) (ptype : PType) (i : Instr) (s : State), (ptype, i) ∈ allFrames h rest →
    Inv s → s.linkState ≠ .idle → AtBoundary s →
    (h.checksum ≠ rightChecksum ptype h →
      exec i s = .next { s with rxState := .waitDelimiter, out := [.diag .headerChecksumError] }) ∧
    (h.checksum = rightChecksum ptype h → ptype ≠ 15 → s.linkState ≠ .active →
      exec i s = .next { s with rxState := .waitDelimiter, out := [.diag .linkNotActive] }) ∧
    (h.checksum = rightChecksum ptype h → (ptype = 15 ∨ s.linkState = .active) →
      h.reliable = true → h.seq ≠ s.expectedRxSeq →
      exec i s = .next { s with rxState := .waitDelimiter, out := [.diag .outOfOrderSequence] }) ∧
    (h.checksum = rightChecksum ptype h → (ptype = 15 ∨ s.linkState = .active) →
      (h.reliable = true → h.seq = s.expectedRxSeq) → ∀ answers, s.poolAnswers = false :: answers →
      exec i s = .next
        { s with
          rxState := .waitDelimiter
          poolAnswers := answers
          out := [.pool (.acquire (h.len.toNat + 4) s.params.headerReserve), .diag .allocationFailure] })

/-- A frame of any type whose trailer differs from the CRC of its header and payload is dropped after reassembly; no ARQ or
link state changes (R119, R190). The frame is a header row, received whole in one step from between two frames, which is the model's
choice, log entry 7; O14's last clause has the drop after any operations in between. -/
def Obligations.CrcMismatchDropsTheFrame : Prop :=
  ∀ (h : HdrFields) (payload : List Byte) (t0 t1 : Byte) (ptype : PType) (i : Instr) (answers : List Bool) (s : State),
    (ptype, i) ∈ allFrames h (payload ++ [t0, t1]) → PassesChecks ptype h payload.length answers s →
    h.crcPresent = true → [t0, t1] ≠ crcTrailer (hdrBytes ptype h ++ payload) →
    exec i s = .next
      { s with
        rxState := .waitDelimiter
        poolAnswers := answers
        out := [.pool (.acquire (payload.length + 4) s.params.headerReserve), .diag .crcMismatch,
          .pool (.release payload)] }

/-- A frame of one of the fourteen ordinary types that passes every check is delivered: sequence number, acknowledgment and
prune are committed, then the payload is appended to `inbound_q` with the next id and reported (R120 to R124). -/
def Obligations.OrdinaryFrameIsDelivered : Prop :=
  ∀ (h : HdrFields) (payload : List Byte) (ptype : PType) (i : Instr) (answers : List Bool) (s : State),
    (ptype, i) ∈ ordinaryFrames h (frameRest ptype h payload) → PassesChecks ptype h payload.length answers s →
    exec i s = .next
      { committed h answers s with
        rxState := .waitDelimiter
        inboundQ := s.inboundQ ++ [{ id := s.rxIdNext, ptype := ptype, payload := payload }]
        rxIdNext := s.rxIdNext + 1
        out := (committed h answers s).out ++ [.onPacket s.rxIdNext ptype payload] }

/-- An ACK frame that passes every check only updates the acknowledgment state; its payload, if any, is freed (R122). -/
def Obligations.AckFrameIsConsumed : Prop :=
  ∀ (h : HdrFields) (payload : List Byte) (answers : List Bool) (s : State),
    PassesChecks 0 h payload.length answers s →
    exec (.hdrAck h (frameRest 0 h payload)) s = .next
      { committed h answers s with
        rxState := .waitDelimiter
        out := (committed h answers s).out ++ [.pool (.release payload)] }

/-- A LINK_CONTROL frame that passes every check goes to the link controller, in every open link state, after its
acknowledgment is committed (R122, R165). -/
def Obligations.LinkControlFrameReachesController : Prop :=
  ∀ (h : HdrFields) (payload : List Byte) (answers : List Bool) (s : State),
    PassesChecks 15 h payload.length answers s →
    exec (.hdrLinkControl h (frameRest 15 h payload)) s = .next
      { lcRx payload (committed h answers s) with
        rxState := .waitDelimiter
        out := (lcRx payload (committed h answers s)).out ++ [.pool (.release payload)] }

/-- A frame or message that starts while another frame is being received abandons that one first: it runs as a DELIM and
then itself (R111). -/
def Obligations.FrameAbandonsTheOneBefore : Prop :=
  ∀ (i : Instr) (s : State), (wireBytes i).bind List.head? = some 0xC0 → i ≠ .delim → InFrame s →
    s.linkState ≠ .idle → exec i s = runOps [.delim, i] s

/-- The receive drops leave every ARQ and link register and queue as it was, and the assembler reset: the five drops of a framing
error, a wrong checksum, a frame before ACTIVE, a sequence number out of order and a wrong trailer, and the sixth, a buffer that the
pool refuses at the fourth byte of a header (R206, R187 to R192). -/
def Obligations.DroppedFramesChangeNoArqState : Prop :=
  ∀ (b : Byte) (s t : State) (c : ErrCode), exec (.rxByte b) s = .next t →
    c ∈ [ErrCode.framingError, .headerChecksumError, .outOfOrderSequence, .crcMismatch, .linkNotActive] ∨
      (c = .allocationFailure ∧ s.rxState = .waitHeader) →
    .diag c ∈ t.out →
    SameArqLink s t ∧ AtBoundary t ∧ t.escState = .noesc ∧ t.rxHdr = [] ∧ t.rxLen = 0 ∧ t.rxBuf = [] ∧ t.rxCrc = [] ∧
      t.rxHeld = false

/-! ### The ARQ engine (42_arq_engine) -/

/-- SUBMIT's checks in the order of R130, each with its result and no change of state but the payload's release. -/
def Obligations.SubmitRejections : Prop :=
  ∀ (ptype : PType) (reliable : Bool) (payload : List Byte) (owned : Bool) (tag : Nat) (s : State),
    let freed : List Event := if owned then [] else [.pool (.release payload)]
    let run := exec (.submit ptype reliable payload owned tag) s
    (s.linkState = .idle → run = .next { s with out := freed ++ [.result .notOpen] }) ∧
    (s.linkState = .syncing ∨ s.linkState = .configuring →
      run = .next { s with out := freed ++ [.result .linkNotActive] }) ∧
    (s.linkState = .active → ptype ∉ ([1, 2, 3, 4] : List PType) →
      run = .next { s with out := freed ++ [.result .invalidPacketType] }) ∧
    (s.linkState = .active → ptype ∈ ([1, 2, 3, 4] : List PType) → payload.length > 4095 →
      run = .next { s with out := freed ++ [.result .payloadTooLarge] }) ∧
    (s.linkState = .active → ptype ∈ ([1, 2, 3, 4] : List PType) → payload.length ≤ 4095 →
      ∀ answers, s.poolAnswers = false :: answers →
      run = .next
        { s with
          poolAnswers := answers
          out := [.pool (.acquire payload.length s.params.headerReserve)] ++ freed ++ [.result .allocationFailure] })

/-- SUBMIT that passes its checks queues the entry at the tail of the queue its reliability names, and sends nothing
(R131). -/
def Obligations.SubmitEnqueues : Prop :=
  ∀ (ptype : PType) (reliable : Bool) (payload : List Byte) (owned : Bool) (tag : Nat) (answers : List Bool) (s : State),
    s.linkState = .active → ptype ∈ ([1, 2, 3, 4] : List PType) → payload.length ≤ 4095 →
    s.poolAnswers = true :: answers →
    let e : TxEntry :=
      { ptype := ptype, reliable := reliable, payload := payload, callerOwned := owned, tag := some tag, seq := 0 }
    exec (.submit ptype reliable payload owned tag) s = .next
      { s with
        pendRelQ := if reliable then s.pendRelQ ++ [e] else s.pendRelQ
        pendUnrelQ := if reliable then s.pendUnrelQ else s.pendUnrelQ ++ [e]
        poolAnswers := answers
        out := [.pool (.acquire payload.length s.params.headerReserve), .result .ok] }

/-- TX_PULL branch 1: the head of `pend_unrel_q` is sent with `seq = 0` and `reliable = 0`, whatever else waits, and its
life ends (R135). -/
def Obligations.PullSendsUnreliableFirst : Prop :=
  ∀ (e : TxEntry) (rest : List TxEntry) (s : State), s.linkState ≠ .idle → s.pendUnrelQ = e :: rest →
    exec .txPull s = .next
      { s with
        pendUnrelQ := rest
        ackPending := false
        out := endEvents [e] ++ [.txFrame (frameBytes s e.ptype false 0 e.payload)] }

/-- TX_PULL branch 2: within the window the head of `pend_rel_q` takes `next_tx_seq`, moves to `unack_q` and is sent; the
retransmission timer is restarted (R136). -/
def Obligations.PullSendsReliableWithinWindow : Prop :=
  ∀ (e : TxEntry) (rest : List TxEntry) (s : State), s.linkState ≠ .idle → s.pendUnrelQ = [] →
    s.pendRelQ = e :: rest → s.unackQ.length < 4 →
    exec .txPull s = .next
      { s with
        pendRelQ := rest
        unackQ := s.unackQ ++ [{ e with seq := s.nextTxSeq }]
        nextTxSeq := s.nextTxSeq + 1
        rtxTimerArmed := true
        ackPending := false
        out := [.timer .rtx (.restart s.params.rtxInterval),
          .txFrame (frameBytes s e.ptype true s.nextTxSeq e.payload)] }

/-- TX_PULL branches 3 and 4: with nothing to send, or the window full, an owed acknowledgment goes out in ACTIVE as an ACK-only
frame, and with none owed nothing does and nothing changes; in IDLE nothing ever does (R137, R138, R140). Whether an owed
acknowledgment goes out before ACTIVE is open, for R134 and the table of R200 differ: the model takes the free value
`Config.ackBeforeActive`, log entry 18 (DESIGN CHOICE). And in SYNCING and CONFIGURING every frame that goes out is a queued
link-control frame, or that ACK-only frame where the free value allows it (R200). -/
def Obligations.PullAcknowledgesOrIsSilent : Prop :=
  ∀ s : State,
    let acknowledged : State := { s with ackPending := false, out := [.txFrame (frameBytes s 0 false 0 [])] }
    let silent : State := { s with out := [.txNone] }
    (s.linkState = .idle → exec .txPull s = .next silent) ∧
    (s.linkState ≠ .idle → s.pendUnrelQ = [] → s.pendRelQ = [] ∨ 4 ≤ s.unackQ.length →
      (s.ackPending = true → s.linkState = .active → exec .txPull s = .next acknowledged) ∧
      (s.ackPending = true → s.linkState ≠ .active →
        exec .txPull s = .next (if Config.ackBeforeActive then acknowledged else silent)) ∧
      (s.ackPending = false → exec .txPull s = .next silent)) ∧
    (Inv s → s.linkState = .syncing ∨ s.linkState = .configuring →
      ∀ (t : State) (frame : List Byte), exec .txPull s = .next t → .txFrame frame ∈ t.out →
        (∃ payload, frame = frameBytes s 15 false 0 payload) ∨
        (Config.ackBeforeActive = true ∧ s.ackPending = true ∧ frame = frameBytes s 0 false 0 []))

/-- A frame the block builds is the encoding of a body whose header has the right checksum and holds the type, the
reliability and sequence number given, the current `expected_rx_seq` and CRC setting and the payload's length; then come the
payload and, with CRC on, the CRC of header and payload (R139, R60, R54). -/
def Obligations.BuiltFrameHoldsItsFields : Prop :=
  ∀ (s : State) (ptype : PType) (rel : Bool) (seq : SeqNum) (payload : List Byte), payload.length ≤ 4095 →
    ∃ (k : Byte) (body : List Byte),
      frameBytes s ptype rel seq payload = encodeFrame s.params.swFlowEscape body ∧
      checksumOk body = true ∧
      hdrType body = ptype ∧
      hdrFields body =
        { seq := seq, ack := s.expectedRxSeq, crcPresent := s.crcTxEnable, reliable := rel
          len := BitVec.ofNat 12 payload.length, checksum := k } ∧
      (BitVec.ofNat 12 payload.length).toNat = payload.length ∧
      body.drop 4 = payload ++ if s.crcTxEnable then crcTrailer (body.take 4 ++ payload) else []

/-- PRUNE removes exactly the entries older than the acknowledgment, releases them in order, reports an acknowledgment that
is none of the sensible values, stops the timer when nothing is left in flight, and changes nothing else (R141). -/
def Obligations.PruneRemovesExactlyTheOlder : Prop :=
  ∀ (a : SeqNum) (s : State), Inv s →
    let old := fun e : TxEntry => olderThan s.nextTxSeq a s.unackQ.length e.seq
    let kept := s.unackQ.filter fun e => !old e
    prune a s =
      { s with
        unackQ := kept
        rtxTimerArmed := if kept = [] then false else s.rtxTimerArmed
        out := s.out ++ endEvents (s.unackQ.filter old) ++
          (if (s.nextTxSeq - a).toNat ≤ s.unackQ.length then [] else [.diag .invalidAck]) ++
          if kept = [] then [.timer .rtx .stop] else [] }

/-- R142: with sequence numbers 2 to 5 in flight, acknowledgment 4 leaves 4 and 5; 6 leaves none and stops the timer; 2
removes none; 7, 0 and 1 are invalid and remove none. -/
def Obligations.CumulativeAckExamples : Prop :=
  ∀ (s : State) (e2 e3 e4 e5 : TxEntry), s.unackQ = [e2, e3, e4, e5] → e2.seq = 2 → e3.seq = 3 → e4.seq = 4 → e5.seq = 5 →
    s.nextTxSeq = 6 →
    (prune 4 s).unackQ = [e4, e5] ∧
    ((prune 6 s).unackQ = [] ∧ (prune 6 s).rtxTimerArmed = false) ∧
    (prune 2 s).unackQ = [e2, e3, e4, e5] ∧
    (prune 7 s).unackQ = [e2, e3, e4, e5] ∧ (prune 0 s).unackQ = [e2, e3, e4, e5] ∧
    (prune 1 s).unackQ = [e2, e3, e4, e5] ∧
    (prune 7 s).out = s.out ++ [.diag .invalidAck] ∧ (prune 0 s).out = s.out ++ [.diag .invalidAck] ∧
    (prune 1 s).out = s.out ++ [.diag .invalidAck]

/-- RTX_EXPIRE moves every unacknowledged entry back to the head of `pend_rel_q` in order, unchanged, rolls `next_tx_seq`
back and spends the timer (R145); with the timer not armed it is not enabled (R52), which the model shows as a refusal, log entry 10
(DEDUCED). -/
def Obligations.RetransmissionTimeoutRequeues : Prop :=
  ∀ s : State,
    (s.rtxTimerArmed = true → exec .rtxExpire s = .next
      { s with
        rtxTimerArmed := false
        pendRelQ := s.unackQ ++ s.pendRelQ
        unackQ := []
        nextTxSeq := s.nextTxSeq - BitVec.ofNat 3 s.unackQ.length
        out := [] }) ∧
    (s.rtxTimerArmed = false → exec .rtxExpire s = .refused (.expiryNotEnabled .rtx))

/-- Go-back-N: after a retransmission timeout, as many pulls as there were entries in flight put the same entries back in
flight with the same sequence numbers, and the rest of the reliable queue is as before (R145, R136, R54). -/
def Obligations.RetransmissionRestoresTheWindow : Prop :=
  ∀ s : State, Inv s → s.linkState = .active → s.rtxTimerArmed = true → s.pendUnrelQ = [] →
    ∃ t, runOps (.rtxExpire :: List.replicate s.unackQ.length .txPull) s = .next t ∧
      t.unackQ = s.unackQ ∧ t.pendRelQ = s.pendRelQ ∧ t.nextTxSeq = s.nextTxSeq

/-- RELEASE frees the delivered entry with this id, keeping the order of the others; an id that names none is reported
(R148). -/
def Obligations.ReleaseFreesTheNamedEntry : Prop :=
  ∀ (id : Nat) (s : State), Inv s → s.linkState ≠ .idle →
    (∀ e ∈ s.inboundQ, e.id = id → exec (.release id) s = .next
      { s with
        inboundQ := s.inboundQ.filter fun f => f.id ≠ id
        out := [.pool (.release e.payload), .result .ok] }) ∧
    ((∀ e ∈ s.inboundQ, e.id ≠ id) → exec (.release id) s = .next { s with out := [.result .unknownHandle] })

/-! ### The link controller (43_link_controller) -/

/-- LC_SEND asks the pool for the message's length and queues an unreliable entry of type 15 at the tail of `pend_unrel_q`,
or loses the message with a diagnostic (R159, R158). -/
def Obligations.LcSendQueuesOrLosesTheMessage : Prop :=
  ∀ (m : LcMsg) (ok : Bool) (answers : List Bool) (s : State), s.poolAnswers = ok :: answers →
    lcSend m s =
      { s with
        poolAnswers := answers
        pendUnrelQ := s.pendUnrelQ ++ sent ok (lcPayload s.params m)
        out := s.out ++ sendEvents s ok (lcPayload s.params m) }

/-- OPEN in IDLE: every register at its reset value, then SYNCING with the sync timer armed and a SYNC queued if the pool
grants its buffer (R157). -/
def Obligations.OpenStartsTheHandshake : Prop :=
  ∀ (ok : Bool) (answers : List Bool) (s : State), s.linkState = .idle → s.poolAnswers = ok :: answers →
    exec .openLink s = .next
      { s.resetRegs with
        linkState := .syncing
        syncTimerArmed := true
        pendUnrelQ := sent ok [0x01, 0x7E]
        poolAnswers := answers
        out := sendEvents s ok [0x01, 0x7E] ++
          [.timer .sync (.start s.params.syncInterval), .result .ok] }

/-- Operations called in the wrong link state return their code and change nothing (R197, R156). -/
def Obligations.MisplacedOperationsOnlyAnswer : Prop :=
  ∀ s : State,
    (s.linkState ≠ .idle → exec .openLink s = .next { s with out := [.result .alreadyOpen] }) ∧
    (s.linkState = .idle → exec .closeLink s = .next { s with out := [.result .notOpen] }) ∧
    (s.linkState = .idle → ∀ id, exec (.release id) s = .next { s with out := [.result .notOpen] })

/-- CLOSE stops both timers first, then ends every transmit entry, frees every delivered entry and a half-received frame,
and leaves the reset values (R180). -/
def Obligations.CloseTearsDown : Prop :=
  ∀ s : State, s.linkState ≠ .idle →
    exec .closeLink s = .next
      { s.resetRegs with
        out := [.timer .sync .stop, .timer .rtx .stop] ++ endEvents (s.unackQ ++ s.pendRelQ ++ s.pendUnrelQ) ++
          (s.inboundQ.map fun e => .pool (.release e.payload)) ++ heldEvents s ++ [.result .ok] }

/-- After CLOSE no timer expiry is enabled, whatever operations follow, until the next OPEN (R53). That an expiry not enabled is
refused is log entry 10 (DEDUCED). -/
def Obligations.NoExpiryBetweenCloseAndOpen : Prop :=
  ∀ (s t u : State) (ops : List Instr), s.linkState ≠ .idle → exec .closeLink s = .next t → Instr.openLink ∉ ops →
    runOps ops t = .next u →
    exec .rtxExpire u = .refused (.expiryNotEnabled .rtx) ∧ exec .syncExpire u = .refused (.expiryNotEnabled .sync)

/-- SYNC_EXPIRE counts the retry, or at the limit notifies and starts over; either way a SYNC is sent and the timer runs
again (R163); with the timer not armed it is not enabled (R52), which the model shows as a refusal, log entry 10 (DEDUCED). -/
def Obligations.SyncTimeoutRetriesOrNotifies : Prop :=
  ∀ (ok : Bool) (answers : List Bool) (s : State),
    (s.syncTimerArmed = true → s.poolAnswers = ok :: answers →
      exec .syncExpire s = .next
        { s with
          syncRetry := if s.syncRetry < s.params.syncRetryLimit then s.syncRetry + 1 else 0
          pendUnrelQ := s.pendUnrelQ ++ sent ok [0x01, 0x7E]
          poolAnswers := answers
          out := (if s.syncRetry < s.params.syncRetryLimit then [] else [.notify .syncFail]) ++
            sendEvents s ok [0x01, 0x7E] ++ [.timer .sync (.restart s.params.syncInterval)] }) ∧
    (s.syncTimerArmed = false → exec .syncExpire s = .refused (.expiryNotEnabled .sync))

/-- From a retry count of 0, `SYNC_RETRY_LIMIT + 1` expiries give exactly one failure notification, the last, and the count
is 0 again, whatever the pool answers (R163). -/
def Obligations.SyncFailureComesEveryLimitPlusOne : Prop :=
  ∀ s : State, s.syncTimerArmed = true → s.syncRetry = 0 →
    (∀ k, k ≤ s.params.syncRetryLimit → ∃ t, runOps (List.replicate k .syncExpire) s = .next t ∧
      t.syncRetry = k ∧ .notify .syncFail ∉ t.out) ∧
    ∃ t, runOps (List.replicate (s.params.syncRetryLimit + 1) .syncExpire) s = .next t ∧
      t.syncRetry = 0 ∧ t.out.count (.notify .syncFail) = 1

/-- SYNC received: answered with SYNC_RSP in every open link state, which does not change (R167). -/
def Obligations.SyncIsAnswered : Prop :=
  ∀ (params : List Byte) (ok : Bool) (answers : List Bool) (s : State),
    MessageArrives (params.length + 2) (ok :: answers) s →
    let p := messageCommitted (params.length + 2) answers s
    exec (.lcSync params) s = .next
      { p with
        rxState := .waitFrameStart
        pendUnrelQ := s.pendUnrelQ ++ sent ok [0x02, 0x7D]
        out := p.out ++ sendEvents s ok [0x02, 0x7D] ++ [.pool (.release (0x01 :: 0x7E :: params))] }

/-- SYNC_RSP received in SYNCING: the sync timer stops, the retransmission timer starts, the link is CONFIGURING and CONFIG
is sent (R169). -/
def Obligations.SyncRspStartsConfiguring : Prop :=
  ∀ (params : List Byte) (ok : Bool) (answers : List Bool) (s : State),
    MessageArrives (params.length + 2) (ok :: answers) s → s.linkState = .syncing →
    let p := messageCommitted (params.length + 2) answers s
    let config := 0x03 :: 0xFC :: s.params.cfgTx.toList
    exec (.lcSyncRsp params) s = .next
      { p with
        rxState := .waitFrameStart
        linkState := .configuring
        syncTimerArmed := false
        rtxTimerArmed := true
        pendUnrelQ := s.pendUnrelQ ++ sent ok config
        out := p.out ++ [.timer .sync .stop, .timer .rtx (.start s.params.rtxInterval)] ++ sendEvents s ok config ++
          [.pool (.release (0x02 :: 0x7D :: params))] }

/-- CONFIG received: in CONFIGURING it is answered with CONFIG_RSP and CONFIG is sent again, in that order; in ACTIVE it is
answered with CONFIG_RSP alone (R173). -/
def Obligations.ConfigIsAnswered : Prop :=
  ∀ (params : List Byte) (ok ok' : Bool) (answers : List Bool) (s : State),
    let config := 0x03 :: 0xFC :: s.params.cfgTx.toList
    let configRsp := 0x04 :: 0x7B :: s.params.cfgRspTx.toList
    (MessageArrives (params.length + 2) (ok :: ok' :: answers) s → s.linkState = .configuring →
      let p := messageCommitted (params.length + 2) answers s
      exec (.lcConfig params) s = .next
        { p with
          rxState := .waitFrameStart
          pendUnrelQ := s.pendUnrelQ ++ sent ok configRsp ++ sent ok' config
          out := p.out ++ sendEvents s ok configRsp ++ sendEvents s ok' config ++
            [.pool (.release (0x03 :: 0xFC :: params))] }) ∧
    (MessageArrives (params.length + 2) (ok :: answers) s → s.linkState = .active →
      let p := messageCommitted (params.length + 2) answers s
      exec (.lcConfig params) s = .next
        { p with
          rxState := .waitFrameStart
          pendUnrelQ := s.pendUnrelQ ++ sent ok configRsp
          out := p.out ++ sendEvents s ok configRsp ++ [.pool (.release (0x03 :: 0xFC :: params))] })

/-- CONFIG_RSP received in CONFIGURING: the CRC bit is taken if a configuration byte is present, the link is ACTIVE and the
owner is notified (R174, R72). -/
def Obligations.ConfigRspActivatesTheLink : Prop :=
  ∀ (params : List Byte) (answers : List Bool) (s : State),
    MessageArrives (params.length + 2) answers s → s.linkState = .configuring →
    let p := messageCommitted (params.length + 2) answers s
    exec (.lcConfigRsp params) s = .next
      { p with
        rxState := .waitFrameStart
        linkState := .active
        crcTxEnable := match params with
          | [] => s.crcTxEnable
          | cfg :: _ => cfg &&& 0x10 != 0
        out := p.out ++ [.notify .active, .pool (.release (0x04 :: 0x7B :: params))] }

/-- Handshake messages in the states that ignore them change nothing beyond the frame's acknowledgment (R169, R173, R174,
R155). -/
def Obligations.MisplacedMessagesAreIgnored : Prop :=
  ∀ (params : List Byte) (answers : List Bool) (s : State) (i : Instr) (a b : Byte),
    MessageArrives (params.length + 2) answers s →
    (i, a, b, s.linkState) ∈
      [(Instr.lcSyncRsp params, (0x02 : Byte), (0x7D : Byte), LinkState.configuring),
       (.lcSyncRsp params, 0x02, 0x7D, .active),
       (.lcConfig params, 0x03, 0xFC, .syncing),
       (.lcConfigRsp params, 0x04, 0x7B, .syncing),
       (.lcConfigRsp params, 0x04, 0x7B, .active)] →
    let p := messageCommitted (params.length + 2) answers s
    exec i s = .next
      { p with rxState := .waitFrameStart, out := p.out ++ [.pool (.release (a :: b :: params))] }

/-- An unknown message only causes a diagnostic, in every open link state (R166). -/
def Obligations.UnknownMessageIsDiagnosed : Prop :=
  ∀ (payload : List Byte) (answers : List Bool) (s : State),
    (Instr.lcUnknown payload).wf = true → MessageArrives payload.length answers s →
    let p := messageCommitted payload.length answers s
    exec (.lcUnknown payload) s = .next
      { p with
        rxState := .waitFrameStart
        out := p.out ++ [.diag .linkControlProtocolError, .pool (.release payload)] }

/-- The handshake scenario: SYNC_RSP in SYNCING, the next frame is the CONFIG, then CONFIG_RSP with configuration byte `0x10`
enables CRC and activates the link, when nothing was queued and the pool grants every buffer (R179, R222). -/
def Obligations.HandshakeScenario : Prop :=
  ∀ (answers : List Bool) (s : State), MessageArrives 2 (true :: true :: answers) s → s.linkState = .syncing →
    s.pendUnrelQ = [] →
    ∃ t u v, exec (.lcSyncRsp []) s = .next t ∧ t.linkState = .configuring ∧
      exec .txPull t = .next u ∧
      .txFrame (frameBytes t 15 false 0 (0x03 :: 0xFC :: s.params.cfgTx.toList)) ∈ u.out ∧ u.linkState = .configuring ∧
      exec (.lcConfigRsp [0x10]) u = .next v ∧ v.linkState = .active ∧ v.crcTxEnable = true ∧ .notify .active ∈ v.out

/-- The link state changes only as R155 lists, and in one instruction along one edge at most: OPEN and CLOSE take theirs, and what
receives bytes (RX_BYTE, and the byte codes, header rows and messages) takes at most one of the two edges of the handshake. -/
def Obligations.LinkStateChangesOnlyAsListed : Prop :=
  ∀ (i : Instr) (s t : State), exec i s = .next t →
    t.linkState = s.linkState ∨
    (i = .openLink ∧ s.linkState = .idle ∧ t.linkState = .syncing) ∨
    (i = .closeLink ∧ s.linkState ≠ .idle ∧ t.linkState = .idle) ∨
    (((∃ b, i = .rxByte b) ∨ wireBytes i ≠ none) ∧
      ((s.linkState = .syncing ∧ t.linkState = .configuring) ∨
       (s.linkState = .configuring ∧ t.linkState = .active)))

/-! ### Whole-machine rules (10_state, 20_memory, 60_exceptions, 70_reset_and_hazards) -/

/-- The reset values, register by register: after hardware reset, at power-up and from any state, after CLOSE, and after OPEN but for the link state, the sync timer
and the SYNC entry, which is queued if the pool grants its buffer (R38). -/
def Obligations.ResetValues : Prop :=
  RegistersReset .idle false [] State.reset ∧
  (∀ s : State, RegistersReset .idle false [] (hardwareReset s)) ∧
  (∀ s t : State, s.linkState ≠ .idle → exec .closeLink s = .next t → RegistersReset .idle false [] t) ∧
  (∀ (ok : Bool) (answers : List Bool) (s t : State), s.linkState = .idle → s.poolAnswers = ok :: answers →
    exec .openLink s = .next t → RegistersReset .syncing true (sent ok [0x01, 0x7E]) t)

/-- The invariant of R33 holds after reset. -/
def Obligations.InvariantHoldsAtReset : Prop := Inv State.reset

/-- Every step, from every state, a hardware reset among them, keeps the invariant of R33 with the ranges of R15 to R31. -/
def Obligations.EveryStepKeepsTheInvariant : Prop :=
  ∀ s t : State, Inv s → step s = .next t → Inv t

/-- In IDLE every operation and wire code but OPEN leaves the whole state as it is, outputs aside (R156). -/
def Obligations.OnlyOpenActsInIdle : Prop :=
  ∀ (i : Instr) (s t : State), Inv s → s.linkState = .idle → i ≠ .openLink → exec i s = .next t →
    t = { s with out := t.out }

/-- The pool answers freely: with no answer put in the state, `acquire` takes the free value at the counter and advances it, so that
each call has an answer of its own (R46; log entry 1). -/
def Obligations.UnansweredPoolCallsTakeTheFreeValue : Prop :=
  ∀ (n : Nat) (s : State), s.poolAnswers = [] →
    acquire n s =
      (Config.poolAnswer s.poolDraws,
        { s with
          poolDraws := s.poolDraws + 1
          out := s.out ++ [.pool (.acquire n s.params.headerReserve)] })

/-- What the statements say of given answers they say of the free value too: an instruction that finds no answer in the state runs as
though the free values from the counter on had been put there, and moves the counter past those it used (log entry 1). -/
def Obligations.GivenAnswersStandForTheFreeValue : Prop :=
  ∀ (i : Instr) (n : Nat) (s t : State),
    let free := (List.range n).map fun k => Config.poolAnswer (s.poolDraws + k)
    s.poolAnswers = [] → exec i { s with poolAnswers := free } = .next t → t.poolAnswers ≠ [] →
    ∃ k, t.poolAnswers = free.drop k ∧ exec i s = .next { t with poolAnswers := [], poolDraws := s.poolDraws + k }

/-- No instruction writes the static configuration (R27), and no hardware reset touches it, nor frees a buffer nor completes an
entry: it has no output (R216). That neither changes the inputs still to come, which are a field of the model's own and no register of
the block (R39), and that a hardware reset keeps the pool's answers to come, is the model's choice, log entries 1, 3 and 11. -/
def Obligations.ParametersNeverChange : Prop :=
  (∀ (i : Instr) (s t : State), exec i s = .next t → t.params = s.params ∧ t.sched = s.sched) ∧
  ∀ s : State,
    let t := hardwareReset s
    t.params = s.params ∧ t.out = [] ∧ t.sched = s.sched ∧ t.poolAnswers = s.poolAnswers ∧ t.poolDraws = s.poolDraws

/-- The access table's columns of the operations that write part of the state: what R34 does not mark W is as before. -/
def Obligations.OperationsWriteOnlyTheirColumn : Prop :=
  (∀ (ptype : PType) (reliable : Bool) (payload : List Byte) (owned : Bool) (tag : Nat) (s t : State),
    exec (.submit ptype reliable payload owned tag) s = .next t → SameReceive s t ∧
      SameArqLink s { t with pendUnrelQ := s.pendUnrelQ, pendRelQ := s.pendRelQ }) ∧
  (∀ (id : Nat) (s t : State), exec (.release id) s = .next t →
    SameReceive s t ∧ SameArqLink s { t with inboundQ := s.inboundQ }) ∧
  (∀ (b : Byte) (s t : State), exec (.rxByte b) s = .next t →
    t.nextTxSeq = s.nextTxSeq ∧ t.syncRetry = s.syncRetry ∧ t.pendRelQ = s.pendRelQ) ∧
  (∀ s t : State, exec .txPull s = .next t → SameReceive s t ∧
    SameArqLink s
      { t with
        nextTxSeq := s.nextTxSeq
        ackPending := s.ackPending
        rtxTimerArmed := s.rtxTimerArmed
        pendUnrelQ := s.pendUnrelQ
        pendRelQ := s.pendRelQ
        unackQ := s.unackQ }) ∧
  (∀ s t : State, exec .rtxExpire s = .next t → SameReceive s t ∧
    SameArqLink s
      { t with nextTxSeq := s.nextTxSeq, rtxTimerArmed := s.rtxTimerArmed, pendRelQ := s.pendRelQ, unackQ := s.unackQ }) ∧
  (∀ s t : State, exec .syncExpire s = .next t → SameReceive s t ∧
    SameArqLink s
      { t with syncTimerArmed := s.syncTimerArmed, syncRetry := s.syncRetry, pendUnrelQ := s.pendUnrelQ })

/-- No instruction stops the machine but an expiry whose timer is not armed (R185, R224). -/
def Obligations.OnlyDisarmedExpiriesStop : Prop :=
  ∀ (i : Instr) (s : State), (∃ t, exec i s = .next t) ∨ (i = .rtxExpire ∧ s.rtxTimerArmed = false) ∨
    (i = .syncExpire ∧ s.syncTimerArmed = false)

/-- One step runs the instruction the next request decodes to, on the state without that request; refuses a request that is no
instruction (log entry 10, DEDUCED from 93 U9); does a hardware reset when that is the next input (log entry 11); and with nothing
offered has no effect (log entry 3). A word of the opcode table placed for the fetch is run next. -/
def Obligations.StepRunsTheDecodedInstruction : Prop :=
  (∀ (s : State) (r : Request) (rest : List Input), s.sched = .request r :: rest →
    (∀ i, decode r = .ok i → step s = exec i { s with sched := rest }) ∧
    (∀ why, decode r = .error why → step s = .refused (.badRequest why))) ∧
  (∀ (s : State) (rest : List Input), s.sched = .hardwareReset :: rest →
    step s = .next (hardwareReset { s with sched := rest })) ∧
  (∀ s : State, s.sched = [] → step s = .next { s with out := [] }) ∧
  (∀ (s : State) (nbits w : Nat) (i : Instr), decodeTableWord nbits w = some i →
    step (s.withFetchWord nbits w) = exec i s)

/-- A reliable packet pulled from one block and fed to another that expects its sequence number, is ACTIVE, is between
frames and gets the buffer, is delivered there unchanged, whatever the sender's CRC and escaping settings (R51, R94, R136,
R123). -/
def Obligations.PulledPacketIsDeliveredByThePeer : Prop :=
  ∀ (x y : State) (e : TxEntry) (rest : List TxEntry) (answers : List Bool),
    x.linkState ≠ .idle → x.pendUnrelQ = [] → x.pendRelQ = e :: rest → x.unackQ.length < 4 →
    e.payload.length ≤ 4095 → e.ptype ≠ 0 → e.ptype ≠ 15 →
    Inv y → y.linkState = .active → AtBoundary y → y.expectedRxSeq = x.nextTxSeq → y.poolAnswers = true :: answers →
    ∃ (x' y' : State) (bytes : List Byte),
      exec .txPull x = .next x' ∧ .txFrame bytes ∈ x'.out ∧
      runOps (bytes.map .rxByte) y = .next y' ∧
      y'.inboundQ = y.inboundQ ++ [{ id := y.rxIdNext, ptype := e.ptype, payload := e.payload }] ∧
      .onPacket y.rxIdNext e.ptype e.payload ∈ y'.out ∧
      y'.expectedRxSeq = x'.nextTxSeq ∧ y'.ackPending = true ∧ y'.lastPeerAck = x.expectedRxSeq ∧
      y'.rxState = .waitFrameStart

/-- A whole exchange: with nothing in flight, a reliable packet is pulled, delivered by the peer, acknowledged by the peer's
next pull, and released by the sender: the entry leaves `unack_q`, its end event (TX_COMPLETE, or the release of its payload) is
emitted, and the timer stops (R51, R136, R137, R141, R47). -/
def Obligations.ReliableExchangeCompletes : Prop :=
  ∀ (x y : State) (e : TxEntry) (rest : List TxEntry) (answers answers' : List Bool),
    Inv x → x.linkState = .active → AtBoundary x → x.pendUnrelQ = [] → x.pendRelQ = e :: rest → x.unackQ = [] →
    x.poolAnswers = true :: answers → e.ptype ≠ 0 → e.ptype ≠ 15 →
    Inv y → y.linkState = .active → AtBoundary y → y.expectedRxSeq = x.nextTxSeq → y.pendUnrelQ = [] →
    y.pendRelQ = [] → y.poolAnswers = true :: answers' →
    ∃ (x1 x2 y1 y2 : State) (frame ack : List Byte),
      exec .txPull x = .next x1 ∧ .txFrame frame ∈ x1.out ∧ x1.unackQ = [{ e with seq := x.nextTxSeq }] ∧
      runOps (frame.map .rxByte) y = .next y1 ∧
      y1.inboundQ = y.inboundQ ++ [{ id := y.rxIdNext, ptype := e.ptype, payload := e.payload }] ∧
      exec .txPull y1 = .next y2 ∧ .txFrame ack ∈ y2.out ∧ y2.ackPending = false ∧
      runOps (ack.map .rxByte) x1 = .next x2 ∧
      x2.unackQ = [] ∧ (∀ event ∈ endEvents [e], event ∈ x2.out) ∧ x2.rtxTimerArmed = false ∧ x2.lastPeerAck = x.nextTxSeq + 1 ∧ x2.pendRelQ = rest
end

