-- ==== Sys2Proof/Laws/Operands.lean ====
section
/-! SUPPORT. What each header field reads back as. -/

namespace Sys2Proof.Machine

/-! ### Header fields -/

theorem hdrByte0_fields (seq ack : SeqNum) (crc rel : Bool) :
    (hdrByte0 seq ack crc rel).extractLsb' 0 3 = seq ∧ (hdrByte0 seq ack crc rel).extractLsb' 3 3 = ack ∧
    (hdrByte0 seq ack crc rel).getLsbD 6 = crc ∧ (hdrByte0 seq ack crc rel).getLsbD 7 = rel := by
  revert seq ack; cases crc <;> cases rel <;> decide

theorem hdrByte1_fields (ptype : PType) (len : PLen) :
    (hdrByte1 ptype len).extractLsb' 0 4 = ptype ∧ (hdrByte1 ptype len).extractLsb' 4 4 = len.setWidth 4 := by
  unfold hdrByte1
  generalize len.setWidth 4 = n
  revert ptype n; decide

theorem hdrByte2_len (len : PLen) : (hdrByte2 len ++ len.setWidth 4 : BitVec (8 + 4)) = len := by
  apply BitVec.eq_of_toNat_eq
  refine (BitVec.toNat_append _ _).trans ?_
  rw [← Nat.shiftLeft_add_eq_or_of_lt (BitVec.isLt _), Nat.shiftLeft_eq]
  have := len.isLt
  simp only [hdrByte2, BitVec.toNat_setWidth, BitVec.toNat_ushiftRight, Nat.shiftRight_eq_div_pow]
  omega

@[simp] theorem hdrType_hdrBytes (ptype : PType) (h : HdrFields) (rest : List Byte) :
    hdrType (hdrBytes ptype h ++ rest) = ptype := (hdrByte1_fields ptype h.len).1

@[simp] theorem hdrFields_hdrBytes (ptype : PType) (h : HdrFields) (rest : List Byte) :
    hdrFields (hdrBytes ptype h ++ rest) = h := by
  obtain ⟨h1, h2, h3, h4⟩ := hdrByte0_fields h.seq h.ack h.crcPresent h.reliable
  have h5 := (hdrByte1_fields ptype h.len).2
  have h6 := hdrByte2_len h.len
  cases h
  simp_all [hdrFields, hdrBytes, hdrAt]

@[simp] theorem checksumOk_hdrBytes (ptype : PType) (h : HdrFields) (rest : List Byte) :
    checksumOk (hdrBytes ptype h ++ rest) = (h.checksum == rightChecksum ptype h) := rfl

end Sys2Proof.Machine
end

