-- ==== Sys2Proof/Laws/State.lean ====
section
/-! SUPPORT. The small lemmas of the state: what each field is after each elementary update, all true by rfl. -/

namespace Sys2Proof.Machine

/-! ### `emit` -/

@[simp] theorem emit_linkState (s : State) (e : Event) : (s.emit e).linkState = s.linkState := rfl
@[simp] theorem emit_syncRetry (s : State) (e : Event) : (s.emit e).syncRetry = s.syncRetry := rfl
@[simp] theorem emit_syncTimerArmed (s : State) (e : Event) : (s.emit e).syncTimerArmed = s.syncTimerArmed := rfl
@[simp] theorem emit_rtxTimerArmed (s : State) (e : Event) : (s.emit e).rtxTimerArmed = s.rtxTimerArmed := rfl
@[simp] theorem emit_crcTxEnable (s : State) (e : Event) : (s.emit e).crcTxEnable = s.crcTxEnable := rfl
@[simp] theorem emit_nextTxSeq (s : State) (e : Event) : (s.emit e).nextTxSeq = s.nextTxSeq := rfl
@[simp] theorem emit_expectedRxSeq (s : State) (e : Event) : (s.emit e).expectedRxSeq = s.expectedRxSeq := rfl
@[simp] theorem emit_lastPeerAck (s : State) (e : Event) : (s.emit e).lastPeerAck = s.lastPeerAck := rfl
@[simp] theorem emit_ackPending (s : State) (e : Event) : (s.emit e).ackPending = s.ackPending := rfl
@[simp] theorem emit_pendUnrelQ (s : State) (e : Event) : (s.emit e).pendUnrelQ = s.pendUnrelQ := rfl
@[simp] theorem emit_pendRelQ (s : State) (e : Event) : (s.emit e).pendRelQ = s.pendRelQ := rfl
@[simp] theorem emit_unackQ (s : State) (e : Event) : (s.emit e).unackQ = s.unackQ := rfl
@[simp] theorem emit_escState (s : State) (e : Event) : (s.emit e).escState = s.escState := rfl
@[simp] theorem emit_rxState (s : State) (e : Event) : (s.emit e).rxState = s.rxState := rfl
@[simp] theorem emit_rxHdr (s : State) (e : Event) : (s.emit e).rxHdr = s.rxHdr := rfl
@[simp] theorem emit_rxLen (s : State) (e : Event) : (s.emit e).rxLen = s.rxLen := rfl
@[simp] theorem emit_rxBuf (s : State) (e : Event) : (s.emit e).rxBuf = s.rxBuf := rfl
@[simp] theorem emit_rxCrc (s : State) (e : Event) : (s.emit e).rxCrc = s.rxCrc := rfl
@[simp] theorem emit_rxHeld (s : State) (e : Event) : (s.emit e).rxHeld = s.rxHeld := rfl
@[simp] theorem emit_inboundQ (s : State) (e : Event) : (s.emit e).inboundQ = s.inboundQ := rfl
@[simp] theorem emit_rxIdNext (s : State) (e : Event) : (s.emit e).rxIdNext = s.rxIdNext := rfl
@[simp] theorem emit_params (s : State) (e : Event) : (s.emit e).params = s.params := rfl
@[simp] theorem emit_sched (s : State) (e : Event) : (s.emit e).sched = s.sched := rfl
@[simp] theorem emit_poolAnswers (s : State) (e : Event) : (s.emit e).poolAnswers = s.poolAnswers := rfl
@[simp] theorem emit_poolDraws (s : State) (e : Event) : (s.emit e).poolDraws = s.poolDraws := rfl
@[simp] theorem emit_out (s : State) (e : Event) : (s.emit e).out = s.out ++ [e] := rfl

/-! ### `begin` -/

@[simp] theorem begin_linkState (s : State) : (s.begin).linkState = s.linkState := rfl
@[simp] theorem begin_syncRetry (s : State) : (s.begin).syncRetry = s.syncRetry := rfl
@[simp] theorem begin_syncTimerArmed (s : State) : (s.begin).syncTimerArmed = s.syncTimerArmed := rfl
@[simp] theorem begin_rtxTimerArmed (s : State) : (s.begin).rtxTimerArmed = s.rtxTimerArmed := rfl
@[simp] theorem begin_crcTxEnable (s : State) : (s.begin).crcTxEnable = s.crcTxEnable := rfl
@[simp] theorem begin_nextTxSeq (s : State) : (s.begin).nextTxSeq = s.nextTxSeq := rfl
@[simp] theorem begin_expectedRxSeq (s : State) : (s.begin).expectedRxSeq = s.expectedRxSeq := rfl
@[simp] theorem begin_lastPeerAck (s : State) : (s.begin).lastPeerAck = s.lastPeerAck := rfl
@[simp] theorem begin_ackPending (s : State) : (s.begin).ackPending = s.ackPending := rfl
@[simp] theorem begin_pendUnrelQ (s : State) : (s.begin).pendUnrelQ = s.pendUnrelQ := rfl
@[simp] theorem begin_pendRelQ (s : State) : (s.begin).pendRelQ = s.pendRelQ := rfl
@[simp] theorem begin_unackQ (s : State) : (s.begin).unackQ = s.unackQ := rfl
@[simp] theorem begin_escState (s : State) : (s.begin).escState = s.escState := rfl
@[simp] theorem begin_rxState (s : State) : (s.begin).rxState = s.rxState := rfl
@[simp] theorem begin_rxHdr (s : State) : (s.begin).rxHdr = s.rxHdr := rfl
@[simp] theorem begin_rxLen (s : State) : (s.begin).rxLen = s.rxLen := rfl
@[simp] theorem begin_rxBuf (s : State) : (s.begin).rxBuf = s.rxBuf := rfl
@[simp] theorem begin_rxCrc (s : State) : (s.begin).rxCrc = s.rxCrc := rfl
@[simp] theorem begin_rxHeld (s : State) : (s.begin).rxHeld = s.rxHeld := rfl
@[simp] theorem begin_inboundQ (s : State) : (s.begin).inboundQ = s.inboundQ := rfl
@[simp] theorem begin_rxIdNext (s : State) : (s.begin).rxIdNext = s.rxIdNext := rfl
@[simp] theorem begin_params (s : State) : (s.begin).params = s.params := rfl
@[simp] theorem begin_sched (s : State) : (s.begin).sched = s.sched := rfl
@[simp] theorem begin_poolAnswers (s : State) : (s.begin).poolAnswers = s.poolAnswers := rfl
@[simp] theorem begin_poolDraws (s : State) : (s.begin).poolDraws = s.poolDraws := rfl
@[simp] theorem begin_out (s : State) : (s.begin).out = [] := rfl

/-! ### `free` -/

@[simp] theorem free_linkState (b : List Byte) (s : State) : (free b s).linkState = s.linkState := rfl
@[simp] theorem free_syncRetry (b : List Byte) (s : State) : (free b s).syncRetry = s.syncRetry := rfl
@[simp] theorem free_syncTimerArmed (b : List Byte) (s : State) : (free b s).syncTimerArmed = s.syncTimerArmed := rfl
@[simp] theorem free_rtxTimerArmed (b : List Byte) (s : State) : (free b s).rtxTimerArmed = s.rtxTimerArmed := rfl
@[simp] theorem free_crcTxEnable (b : List Byte) (s : State) : (free b s).crcTxEnable = s.crcTxEnable := rfl
@[simp] theorem free_nextTxSeq (b : List Byte) (s : State) : (free b s).nextTxSeq = s.nextTxSeq := rfl
@[simp] theorem free_expectedRxSeq (b : List Byte) (s : State) : (free b s).expectedRxSeq = s.expectedRxSeq := rfl
@[simp] theorem free_lastPeerAck (b : List Byte) (s : State) : (free b s).lastPeerAck = s.lastPeerAck := rfl
@[simp] theorem free_ackPending (b : List Byte) (s : State) : (free b s).ackPending = s.ackPending := rfl
@[simp] theorem free_pendUnrelQ (b : List Byte) (s : State) : (free b s).pendUnrelQ = s.pendUnrelQ := rfl
@[simp] theorem free_pendRelQ (b : List Byte) (s : State) : (free b s).pendRelQ = s.pendRelQ := rfl
@[simp] theorem free_unackQ (b : List Byte) (s : State) : (free b s).unackQ = s.unackQ := rfl
@[simp] theorem free_escState (b : List Byte) (s : State) : (free b s).escState = s.escState := rfl
@[simp] theorem free_rxState (b : List Byte) (s : State) : (free b s).rxState = s.rxState := rfl
@[simp] theorem free_rxHdr (b : List Byte) (s : State) : (free b s).rxHdr = s.rxHdr := rfl
@[simp] theorem free_rxLen (b : List Byte) (s : State) : (free b s).rxLen = s.rxLen := rfl
@[simp] theorem free_rxBuf (b : List Byte) (s : State) : (free b s).rxBuf = s.rxBuf := rfl
@[simp] theorem free_rxCrc (b : List Byte) (s : State) : (free b s).rxCrc = s.rxCrc := rfl
@[simp] theorem free_rxHeld (b : List Byte) (s : State) : (free b s).rxHeld = s.rxHeld := rfl
@[simp] theorem free_inboundQ (b : List Byte) (s : State) : (free b s).inboundQ = s.inboundQ := rfl
@[simp] theorem free_rxIdNext (b : List Byte) (s : State) : (free b s).rxIdNext = s.rxIdNext := rfl
@[simp] theorem free_params (b : List Byte) (s : State) : (free b s).params = s.params := rfl
@[simp] theorem free_sched (b : List Byte) (s : State) : (free b s).sched = s.sched := rfl
@[simp] theorem free_poolAnswers (b : List Byte) (s : State) : (free b s).poolAnswers = s.poolAnswers := rfl
@[simp] theorem free_poolDraws (b : List Byte) (s : State) : (free b s).poolDraws = s.poolDraws := rfl
@[simp] theorem free_out (b : List Byte) (s : State) : (free b s).out = s.out ++ [.pool (.release b)] := rfl

/-! ### `answer` -/

@[simp] theorem answer_linkState (c : ErrCode) (s : State) : (answer c s).linkState = s.linkState := rfl
@[simp] theorem answer_syncRetry (c : ErrCode) (s : State) : (answer c s).syncRetry = s.syncRetry := rfl
@[simp] theorem answer_syncTimerArmed (c : ErrCode) (s : State) : (answer c s).syncTimerArmed = s.syncTimerArmed := rfl
@[simp] theorem answer_rtxTimerArmed (c : ErrCode) (s : State) : (answer c s).rtxTimerArmed = s.rtxTimerArmed := rfl
@[simp] theorem answer_crcTxEnable (c : ErrCode) (s : State) : (answer c s).crcTxEnable = s.crcTxEnable := rfl
@[simp] theorem answer_nextTxSeq (c : ErrCode) (s : State) : (answer c s).nextTxSeq = s.nextTxSeq := rfl
@[simp] theorem answer_expectedRxSeq (c : ErrCode) (s : State) : (answer c s).expectedRxSeq = s.expectedRxSeq := rfl
@[simp] theorem answer_lastPeerAck (c : ErrCode) (s : State) : (answer c s).lastPeerAck = s.lastPeerAck := rfl
@[simp] theorem answer_ackPending (c : ErrCode) (s : State) : (answer c s).ackPending = s.ackPending := rfl
@[simp] theorem answer_pendUnrelQ (c : ErrCode) (s : State) : (answer c s).pendUnrelQ = s.pendUnrelQ := rfl
@[simp] theorem answer_pendRelQ (c : ErrCode) (s : State) : (answer c s).pendRelQ = s.pendRelQ := rfl
@[simp] theorem answer_unackQ (c : ErrCode) (s : State) : (answer c s).unackQ = s.unackQ := rfl
@[simp] theorem answer_escState (c : ErrCode) (s : State) : (answer c s).escState = s.escState := rfl
@[simp] theorem answer_rxState (c : ErrCode) (s : State) : (answer c s).rxState = s.rxState := rfl
@[simp] theorem answer_rxHdr (c : ErrCode) (s : State) : (answer c s).rxHdr = s.rxHdr := rfl
@[simp] theorem answer_rxLen (c : ErrCode) (s : State) : (answer c s).rxLen = s.rxLen := rfl
@[simp] theorem answer_rxBuf (c : ErrCode) (s : State) : (answer c s).rxBuf = s.rxBuf := rfl
@[simp] theorem answer_rxCrc (c : ErrCode) (s : State) : (answer c s).rxCrc = s.rxCrc := rfl
@[simp] theorem answer_rxHeld (c : ErrCode) (s : State) : (answer c s).rxHeld = s.rxHeld := rfl
@[simp] theorem answer_inboundQ (c : ErrCode) (s : State) : (answer c s).inboundQ = s.inboundQ := rfl
@[simp] theorem answer_rxIdNext (c : ErrCode) (s : State) : (answer c s).rxIdNext = s.rxIdNext := rfl
@[simp] theorem answer_params (c : ErrCode) (s : State) : (answer c s).params = s.params := rfl
@[simp] theorem answer_sched (c : ErrCode) (s : State) : (answer c s).sched = s.sched := rfl
@[simp] theorem answer_poolAnswers (c : ErrCode) (s : State) : (answer c s).poolAnswers = s.poolAnswers := rfl
@[simp] theorem answer_poolDraws (c : ErrCode) (s : State) : (answer c s).poolDraws = s.poolDraws := rfl
@[simp] theorem answer_out (c : ErrCode) (s : State) : (answer c s).out = s.out ++ [.result c] := rfl

/-! ### `clearAckPending` -/

@[simp] theorem clearAckPending_linkState (s : State) : (s.clearAckPending).linkState = s.linkState := rfl
@[simp] theorem clearAckPending_syncRetry (s : State) : (s.clearAckPending).syncRetry = s.syncRetry := rfl
@[simp] theorem clearAckPending_syncTimerArmed (s : State) : (s.clearAckPending).syncTimerArmed = s.syncTimerArmed := rfl
@[simp] theorem clearAckPending_rtxTimerArmed (s : State) : (s.clearAckPending).rtxTimerArmed = s.rtxTimerArmed := rfl
@[simp] theorem clearAckPending_crcTxEnable (s : State) : (s.clearAckPending).crcTxEnable = s.crcTxEnable := rfl
@[simp] theorem clearAckPending_nextTxSeq (s : State) : (s.clearAckPending).nextTxSeq = s.nextTxSeq := rfl
@[simp] theorem clearAckPending_expectedRxSeq (s : State) : (s.clearAckPending).expectedRxSeq = s.expectedRxSeq := rfl
@[simp] theorem clearAckPending_lastPeerAck (s : State) : (s.clearAckPending).lastPeerAck = s.lastPeerAck := rfl
@[simp] theorem clearAckPending_ackPending (s : State) : (s.clearAckPending).ackPending = false := rfl
@[simp] theorem clearAckPending_pendUnrelQ (s : State) : (s.clearAckPending).pendUnrelQ = s.pendUnrelQ := rfl
@[simp] theorem clearAckPending_pendRelQ (s : State) : (s.clearAckPending).pendRelQ = s.pendRelQ := rfl
@[simp] theorem clearAckPending_unackQ (s : State) : (s.clearAckPending).unackQ = s.unackQ := rfl
@[simp] theorem clearAckPending_escState (s : State) : (s.clearAckPending).escState = s.escState := rfl
@[simp] theorem clearAckPending_rxState (s : State) : (s.clearAckPending).rxState = s.rxState := rfl
@[simp] theorem clearAckPending_rxHdr (s : State) : (s.clearAckPending).rxHdr = s.rxHdr := rfl
@[simp] theorem clearAckPending_rxLen (s : State) : (s.clearAckPending).rxLen = s.rxLen := rfl
@[simp] theorem clearAckPending_rxBuf (s : State) : (s.clearAckPending).rxBuf = s.rxBuf := rfl
@[simp] theorem clearAckPending_rxCrc (s : State) : (s.clearAckPending).rxCrc = s.rxCrc := rfl
@[simp] theorem clearAckPending_rxHeld (s : State) : (s.clearAckPending).rxHeld = s.rxHeld := rfl
@[simp] theorem clearAckPending_inboundQ (s : State) : (s.clearAckPending).inboundQ = s.inboundQ := rfl
@[simp] theorem clearAckPending_rxIdNext (s : State) : (s.clearAckPending).rxIdNext = s.rxIdNext := rfl
@[simp] theorem clearAckPending_params (s : State) : (s.clearAckPending).params = s.params := rfl
@[simp] theorem clearAckPending_sched (s : State) : (s.clearAckPending).sched = s.sched := rfl
@[simp] theorem clearAckPending_poolAnswers (s : State) : (s.clearAckPending).poolAnswers = s.poolAnswers := rfl
@[simp] theorem clearAckPending_poolDraws (s : State) : (s.clearAckPending).poolDraws = s.poolDraws := rfl
@[simp] theorem clearAckPending_out (s : State) : (s.clearAckPending).out = s.out := rfl

/-! ### `startSyncTimer` -/

@[simp] theorem startSyncTimer_linkState (s : State) : (startSyncTimer s).linkState = s.linkState := rfl
@[simp] theorem startSyncTimer_syncRetry (s : State) : (startSyncTimer s).syncRetry = s.syncRetry := rfl
@[simp] theorem startSyncTimer_syncTimerArmed (s : State) : (startSyncTimer s).syncTimerArmed = true := rfl
@[simp] theorem startSyncTimer_rtxTimerArmed (s : State) : (startSyncTimer s).rtxTimerArmed = s.rtxTimerArmed := rfl
@[simp] theorem startSyncTimer_crcTxEnable (s : State) : (startSyncTimer s).crcTxEnable = s.crcTxEnable := rfl
@[simp] theorem startSyncTimer_nextTxSeq (s : State) : (startSyncTimer s).nextTxSeq = s.nextTxSeq := rfl
@[simp] theorem startSyncTimer_expectedRxSeq (s : State) : (startSyncTimer s).expectedRxSeq = s.expectedRxSeq := rfl
@[simp] theorem startSyncTimer_lastPeerAck (s : State) : (startSyncTimer s).lastPeerAck = s.lastPeerAck := rfl
@[simp] theorem startSyncTimer_ackPending (s : State) : (startSyncTimer s).ackPending = s.ackPending := rfl
@[simp] theorem startSyncTimer_pendUnrelQ (s : State) : (startSyncTimer s).pendUnrelQ = s.pendUnrelQ := rfl
@[simp] theorem startSyncTimer_pendRelQ (s : State) : (startSyncTimer s).pendRelQ = s.pendRelQ := rfl
@[simp] theorem startSyncTimer_unackQ (s : State) : (startSyncTimer s).unackQ = s.unackQ := rfl
@[simp] theorem startSyncTimer_escState (s : State) : (startSyncTimer s).escState = s.escState := rfl
@[simp] theorem startSyncTimer_rxState (s : State) : (startSyncTimer s).rxState = s.rxState := rfl
@[simp] theorem startSyncTimer_rxHdr (s : State) : (startSyncTimer s).rxHdr = s.rxHdr := rfl
@[simp] theorem startSyncTimer_rxLen (s : State) : (startSyncTimer s).rxLen = s.rxLen := rfl
@[simp] theorem startSyncTimer_rxBuf (s : State) : (startSyncTimer s).rxBuf = s.rxBuf := rfl
@[simp] theorem startSyncTimer_rxCrc (s : State) : (startSyncTimer s).rxCrc = s.rxCrc := rfl
@[simp] theorem startSyncTimer_rxHeld (s : State) : (startSyncTimer s).rxHeld = s.rxHeld := rfl
@[simp] theorem startSyncTimer_inboundQ (s : State) : (startSyncTimer s).inboundQ = s.inboundQ := rfl
@[simp] theorem startSyncTimer_rxIdNext (s : State) : (startSyncTimer s).rxIdNext = s.rxIdNext := rfl
@[simp] theorem startSyncTimer_params (s : State) : (startSyncTimer s).params = s.params := rfl
@[simp] theorem startSyncTimer_sched (s : State) : (startSyncTimer s).sched = s.sched := rfl
@[simp] theorem startSyncTimer_poolAnswers (s : State) : (startSyncTimer s).poolAnswers = s.poolAnswers := rfl
@[simp] theorem startSyncTimer_poolDraws (s : State) : (startSyncTimer s).poolDraws = s.poolDraws := rfl
@[simp] theorem startSyncTimer_out (s : State) : (startSyncTimer s).out = s.out ++ [.timer .sync (.start s.params.syncInterval)] := rfl

/-! ### `restartSyncTimer` -/

@[simp] theorem restartSyncTimer_linkState (s : State) : (restartSyncTimer s).linkState = s.linkState := rfl
@[simp] theorem restartSyncTimer_syncRetry (s : State) : (restartSyncTimer s).syncRetry = s.syncRetry := rfl
@[simp] theorem restartSyncTimer_syncTimerArmed (s : State) : (restartSyncTimer s).syncTimerArmed = true := rfl
@[simp] theorem restartSyncTimer_rtxTimerArmed (s : State) : (restartSyncTimer s).rtxTimerArmed = s.rtxTimerArmed := rfl
@[simp] theorem restartSyncTimer_crcTxEnable (s : State) : (restartSyncTimer s).crcTxEnable = s.crcTxEnable := rfl
@[simp] theorem restartSyncTimer_nextTxSeq (s : State) : (restartSyncTimer s).nextTxSeq = s.nextTxSeq := rfl
@[simp] theorem restartSyncTimer_expectedRxSeq (s : State) : (restartSyncTimer s).expectedRxSeq = s.expectedRxSeq := rfl
@[simp] theorem restartSyncTimer_lastPeerAck (s : State) : (restartSyncTimer s).lastPeerAck = s.lastPeerAck := rfl
@[simp] theorem restartSyncTimer_ackPending (s : State) : (restartSyncTimer s).ackPending = s.ackPending := rfl
@[simp] theorem restartSyncTimer_pendUnrelQ (s : State) : (restartSyncTimer s).pendUnrelQ = s.pendUnrelQ := rfl
@[simp] theorem restartSyncTimer_pendRelQ (s : State) : (restartSyncTimer s).pendRelQ = s.pendRelQ := rfl
@[simp] theorem restartSyncTimer_unackQ (s : State) : (restartSyncTimer s).unackQ = s.unackQ := rfl
@[simp] theorem restartSyncTimer_escState (s : State) : (restartSyncTimer s).escState = s.escState := rfl
@[simp] theorem restartSyncTimer_rxState (s : State) : (restartSyncTimer s).rxState = s.rxState := rfl
@[simp] theorem restartSyncTimer_rxHdr (s : State) : (restartSyncTimer s).rxHdr = s.rxHdr := rfl
@[simp] theorem restartSyncTimer_rxLen (s : State) : (restartSyncTimer s).rxLen = s.rxLen := rfl
@[simp] theorem restartSyncTimer_rxBuf (s : State) : (restartSyncTimer s).rxBuf = s.rxBuf := rfl
@[simp] theorem restartSyncTimer_rxCrc (s : State) : (restartSyncTimer s).rxCrc = s.rxCrc := rfl
@[simp] theorem restartSyncTimer_rxHeld (s : State) : (restartSyncTimer s).rxHeld = s.rxHeld := rfl
@[simp] theorem restartSyncTimer_inboundQ (s : State) : (restartSyncTimer s).inboundQ = s.inboundQ := rfl
@[simp] theorem restartSyncTimer_rxIdNext (s : State) : (restartSyncTimer s).rxIdNext = s.rxIdNext := rfl
@[simp] theorem restartSyncTimer_params (s : State) : (restartSyncTimer s).params = s.params := rfl
@[simp] theorem restartSyncTimer_sched (s : State) : (restartSyncTimer s).sched = s.sched := rfl
@[simp] theorem restartSyncTimer_poolAnswers (s : State) : (restartSyncTimer s).poolAnswers = s.poolAnswers := rfl
@[simp] theorem restartSyncTimer_poolDraws (s : State) : (restartSyncTimer s).poolDraws = s.poolDraws := rfl
@[simp] theorem restartSyncTimer_out (s : State) : (restartSyncTimer s).out = s.out ++ [.timer .sync (.restart s.params.syncInterval)] := rfl

/-! ### `stopSyncTimer` -/

@[simp] theorem stopSyncTimer_linkState (s : State) : (stopSyncTimer s).linkState = s.linkState := rfl
@[simp] theorem stopSyncTimer_syncRetry (s : State) : (stopSyncTimer s).syncRetry = s.syncRetry := rfl
@[simp] theorem stopSyncTimer_syncTimerArmed (s : State) : (stopSyncTimer s).syncTimerArmed = false := rfl
@[simp] theorem stopSyncTimer_rtxTimerArmed (s : State) : (stopSyncTimer s).rtxTimerArmed = s.rtxTimerArmed := rfl
@[simp] theorem stopSyncTimer_crcTxEnable (s : State) : (stopSyncTimer s).crcTxEnable = s.crcTxEnable := rfl
@[simp] theorem stopSyncTimer_nextTxSeq (s : State) : (stopSyncTimer s).nextTxSeq = s.nextTxSeq := rfl
@[simp] theorem stopSyncTimer_expectedRxSeq (s : State) : (stopSyncTimer s).expectedRxSeq = s.expectedRxSeq := rfl
@[simp] theorem stopSyncTimer_lastPeerAck (s : State) : (stopSyncTimer s).lastPeerAck = s.lastPeerAck := rfl
@[simp] theorem stopSyncTimer_ackPending (s : State) : (stopSyncTimer s).ackPending = s.ackPending := rfl
@[simp] theorem stopSyncTimer_pendUnrelQ (s : State) : (stopSyncTimer s).pendUnrelQ = s.pendUnrelQ := rfl
@[simp] theorem stopSyncTimer_pendRelQ (s : State) : (stopSyncTimer s).pendRelQ = s.pendRelQ := rfl
@[simp] theorem stopSyncTimer_unackQ (s : State) : (stopSyncTimer s).unackQ = s.unackQ := rfl
@[simp] theorem stopSyncTimer_escState (s : State) : (stopSyncTimer s).escState = s.escState := rfl
@[simp] theorem stopSyncTimer_rxState (s : State) : (stopSyncTimer s).rxState = s.rxState := rfl
@[simp] theorem stopSyncTimer_rxHdr (s : State) : (stopSyncTimer s).rxHdr = s.rxHdr := rfl
@[simp] theorem stopSyncTimer_rxLen (s : State) : (stopSyncTimer s).rxLen = s.rxLen := rfl
@[simp] theorem stopSyncTimer_rxBuf (s : State) : (stopSyncTimer s).rxBuf = s.rxBuf := rfl
@[simp] theorem stopSyncTimer_rxCrc (s : State) : (stopSyncTimer s).rxCrc = s.rxCrc := rfl
@[simp] theorem stopSyncTimer_rxHeld (s : State) : (stopSyncTimer s).rxHeld = s.rxHeld := rfl
@[simp] theorem stopSyncTimer_inboundQ (s : State) : (stopSyncTimer s).inboundQ = s.inboundQ := rfl
@[simp] theorem stopSyncTimer_rxIdNext (s : State) : (stopSyncTimer s).rxIdNext = s.rxIdNext := rfl
@[simp] theorem stopSyncTimer_params (s : State) : (stopSyncTimer s).params = s.params := rfl
@[simp] theorem stopSyncTimer_sched (s : State) : (stopSyncTimer s).sched = s.sched := rfl
@[simp] theorem stopSyncTimer_poolAnswers (s : State) : (stopSyncTimer s).poolAnswers = s.poolAnswers := rfl
@[simp] theorem stopSyncTimer_poolDraws (s : State) : (stopSyncTimer s).poolDraws = s.poolDraws := rfl
@[simp] theorem stopSyncTimer_out (s : State) : (stopSyncTimer s).out = s.out ++ [.timer .sync .stop] := rfl

/-! ### `startRtxTimer` -/

@[simp] theorem startRtxTimer_linkState (s : State) : (startRtxTimer s).linkState = s.linkState := rfl
@[simp] theorem startRtxTimer_syncRetry (s : State) : (startRtxTimer s).syncRetry = s.syncRetry := rfl
@[simp] theorem startRtxTimer_syncTimerArmed (s : State) : (startRtxTimer s).syncTimerArmed = s.syncTimerArmed := rfl
@[simp] theorem startRtxTimer_rtxTimerArmed (s : State) : (startRtxTimer s).rtxTimerArmed = true := rfl
@[simp] theorem startRtxTimer_crcTxEnable (s : State) : (startRtxTimer s).crcTxEnable = s.crcTxEnable := rfl
@[simp] theorem startRtxTimer_nextTxSeq (s : State) : (startRtxTimer s).nextTxSeq = s.nextTxSeq := rfl
@[simp] theorem startRtxTimer_expectedRxSeq (s : State) : (startRtxTimer s).expectedRxSeq = s.expectedRxSeq := rfl
@[simp] theorem startRtxTimer_lastPeerAck (s : State) : (startRtxTimer s).lastPeerAck = s.lastPeerAck := rfl
@[simp] theorem startRtxTimer_ackPending (s : State) : (startRtxTimer s).ackPending = s.ackPending := rfl
@[simp] theorem startRtxTimer_pendUnrelQ (s : State) : (startRtxTimer s).pendUnrelQ = s.pendUnrelQ := rfl
@[simp] theorem startRtxTimer_pendRelQ (s : State) : (startRtxTimer s).pendRelQ = s.pendRelQ := rfl
@[simp] theorem startRtxTimer_unackQ (s : State) : (startRtxTimer s).unackQ = s.unackQ := rfl
@[simp] theorem startRtxTimer_escState (s : State) : (startRtxTimer s).escState = s.escState := rfl
@[simp] theorem startRtxTimer_rxState (s : State) : (startRtxTimer s).rxState = s.rxState := rfl
@[simp] theorem startRtxTimer_rxHdr (s : State) : (startRtxTimer s).rxHdr = s.rxHdr := rfl
@[simp] theorem startRtxTimer_rxLen (s : State) : (startRtxTimer s).rxLen = s.rxLen := rfl
@[simp] theorem startRtxTimer_rxBuf (s : State) : (startRtxTimer s).rxBuf = s.rxBuf := rfl
@[simp] theorem startRtxTimer_rxCrc (s : State) : (startRtxTimer s).rxCrc = s.rxCrc := rfl
@[simp] theorem startRtxTimer_rxHeld (s : State) : (startRtxTimer s).rxHeld = s.rxHeld := rfl
@[simp] theorem startRtxTimer_inboundQ (s : State) : (startRtxTimer s).inboundQ = s.inboundQ := rfl
@[simp] theorem startRtxTimer_rxIdNext (s : State) : (startRtxTimer s).rxIdNext = s.rxIdNext := rfl
@[simp] theorem startRtxTimer_params (s : State) : (startRtxTimer s).params = s.params := rfl
@[simp] theorem startRtxTimer_sched (s : State) : (startRtxTimer s).sched = s.sched := rfl
@[simp] theorem startRtxTimer_poolAnswers (s : State) : (startRtxTimer s).poolAnswers = s.poolAnswers := rfl
@[simp] theorem startRtxTimer_poolDraws (s : State) : (startRtxTimer s).poolDraws = s.poolDraws := rfl
@[simp] theorem startRtxTimer_out (s : State) : (startRtxTimer s).out = s.out ++ [.timer .rtx (.start s.params.rtxInterval)] := rfl

/-! ### `restartRtxTimer` -/

@[simp] theorem restartRtxTimer_linkState (s : State) : (restartRtxTimer s).linkState = s.linkState := rfl
@[simp] theorem restartRtxTimer_syncRetry (s : State) : (restartRtxTimer s).syncRetry = s.syncRetry := rfl
@[simp] theorem restartRtxTimer_syncTimerArmed (s : State) : (restartRtxTimer s).syncTimerArmed = s.syncTimerArmed := rfl
@[simp] theorem restartRtxTimer_rtxTimerArmed (s : State) : (restartRtxTimer s).rtxTimerArmed = true := rfl
@[simp] theorem restartRtxTimer_crcTxEnable (s : State) : (restartRtxTimer s).crcTxEnable = s.crcTxEnable := rfl
@[simp] theorem restartRtxTimer_nextTxSeq (s : State) : (restartRtxTimer s).nextTxSeq = s.nextTxSeq := rfl
@[simp] theorem restartRtxTimer_expectedRxSeq (s : State) : (restartRtxTimer s).expectedRxSeq = s.expectedRxSeq := rfl
@[simp] theorem restartRtxTimer_lastPeerAck (s : State) : (restartRtxTimer s).lastPeerAck = s.lastPeerAck := rfl
@[simp] theorem restartRtxTimer_ackPending (s : State) : (restartRtxTimer s).ackPending = s.ackPending := rfl
@[simp] theorem restartRtxTimer_pendUnrelQ (s : State) : (restartRtxTimer s).pendUnrelQ = s.pendUnrelQ := rfl
@[simp] theorem restartRtxTimer_pendRelQ (s : State) : (restartRtxTimer s).pendRelQ = s.pendRelQ := rfl
@[simp] theorem restartRtxTimer_unackQ (s : State) : (restartRtxTimer s).unackQ = s.unackQ := rfl
@[simp] theorem restartRtxTimer_escState (s : State) : (restartRtxTimer s).escState = s.escState := rfl
@[simp] theorem restartRtxTimer_rxState (s : State) : (restartRtxTimer s).rxState = s.rxState := rfl
@[simp] theorem restartRtxTimer_rxHdr (s : State) : (restartRtxTimer s).rxHdr = s.rxHdr := rfl
@[simp] theorem restartRtxTimer_rxLen (s : State) : (restartRtxTimer s).rxLen = s.rxLen := rfl
@[simp] theorem restartRtxTimer_rxBuf (s : State) : (restartRtxTimer s).rxBuf = s.rxBuf := rfl
@[simp] theorem restartRtxTimer_rxCrc (s : State) : (restartRtxTimer s).rxCrc = s.rxCrc := rfl
@[simp] theorem restartRtxTimer_rxHeld (s : State) : (restartRtxTimer s).rxHeld = s.rxHeld := rfl
@[simp] theorem restartRtxTimer_inboundQ (s : State) : (restartRtxTimer s).inboundQ = s.inboundQ := rfl
@[simp] theorem restartRtxTimer_rxIdNext (s : State) : (restartRtxTimer s).rxIdNext = s.rxIdNext := rfl
@[simp] theorem restartRtxTimer_params (s : State) : (restartRtxTimer s).params = s.params := rfl
@[simp] theorem restartRtxTimer_sched (s : State) : (restartRtxTimer s).sched = s.sched := rfl
@[simp] theorem restartRtxTimer_poolAnswers (s : State) : (restartRtxTimer s).poolAnswers = s.poolAnswers := rfl
@[simp] theorem restartRtxTimer_poolDraws (s : State) : (restartRtxTimer s).poolDraws = s.poolDraws := rfl
@[simp] theorem restartRtxTimer_out (s : State) : (restartRtxTimer s).out = s.out ++ [.timer .rtx (.restart s.params.rtxInterval)] := rfl

/-! ### `stopRtxTimer` -/

@[simp] theorem stopRtxTimer_linkState (s : State) : (stopRtxTimer s).linkState = s.linkState := rfl
@[simp] theorem stopRtxTimer_syncRetry (s : State) : (stopRtxTimer s).syncRetry = s.syncRetry := rfl
@[simp] theorem stopRtxTimer_syncTimerArmed (s : State) : (stopRtxTimer s).syncTimerArmed = s.syncTimerArmed := rfl
@[simp] theorem stopRtxTimer_rtxTimerArmed (s : State) : (stopRtxTimer s).rtxTimerArmed = false := rfl
@[simp] theorem stopRtxTimer_crcTxEnable (s : State) : (stopRtxTimer s).crcTxEnable = s.crcTxEnable := rfl
@[simp] theorem stopRtxTimer_nextTxSeq (s : State) : (stopRtxTimer s).nextTxSeq = s.nextTxSeq := rfl
@[simp] theorem stopRtxTimer_expectedRxSeq (s : State) : (stopRtxTimer s).expectedRxSeq = s.expectedRxSeq := rfl
@[simp] theorem stopRtxTimer_lastPeerAck (s : State) : (stopRtxTimer s).lastPeerAck = s.lastPeerAck := rfl
@[simp] theorem stopRtxTimer_ackPending (s : State) : (stopRtxTimer s).ackPending = s.ackPending := rfl
@[simp] theorem stopRtxTimer_pendUnrelQ (s : State) : (stopRtxTimer s).pendUnrelQ = s.pendUnrelQ := rfl
@[simp] theorem stopRtxTimer_pendRelQ (s : State) : (stopRtxTimer s).pendRelQ = s.pendRelQ := rfl
@[simp] theorem stopRtxTimer_unackQ (s : State) : (stopRtxTimer s).unackQ = s.unackQ := rfl
@[simp] theorem stopRtxTimer_escState (s : State) : (stopRtxTimer s).escState = s.escState := rfl
@[simp] theorem stopRtxTimer_rxState (s : State) : (stopRtxTimer s).rxState = s.rxState := rfl
@[simp] theorem stopRtxTimer_rxHdr (s : State) : (stopRtxTimer s).rxHdr = s.rxHdr := rfl
@[simp] theorem stopRtxTimer_rxLen (s : State) : (stopRtxTimer s).rxLen = s.rxLen := rfl
@[simp] theorem stopRtxTimer_rxBuf (s : State) : (stopRtxTimer s).rxBuf = s.rxBuf := rfl
@[simp] theorem stopRtxTimer_rxCrc (s : State) : (stopRtxTimer s).rxCrc = s.rxCrc := rfl
@[simp] theorem stopRtxTimer_rxHeld (s : State) : (stopRtxTimer s).rxHeld = s.rxHeld := rfl
@[simp] theorem stopRtxTimer_inboundQ (s : State) : (stopRtxTimer s).inboundQ = s.inboundQ := rfl
@[simp] theorem stopRtxTimer_rxIdNext (s : State) : (stopRtxTimer s).rxIdNext = s.rxIdNext := rfl
@[simp] theorem stopRtxTimer_params (s : State) : (stopRtxTimer s).params = s.params := rfl
@[simp] theorem stopRtxTimer_sched (s : State) : (stopRtxTimer s).sched = s.sched := rfl
@[simp] theorem stopRtxTimer_poolAnswers (s : State) : (stopRtxTimer s).poolAnswers = s.poolAnswers := rfl
@[simp] theorem stopRtxTimer_poolDraws (s : State) : (stopRtxTimer s).poolDraws = s.poolDraws := rfl
@[simp] theorem stopRtxTimer_out (s : State) : (stopRtxTimer s).out = s.out ++ [.timer .rtx .stop] := rfl

/-! ### `resetRegs`: the table of R38 -/

@[simp] theorem resetRegs_linkState (s : State) : (s.resetRegs).linkState = .idle := rfl
@[simp] theorem resetRegs_syncRetry (s : State) : (s.resetRegs).syncRetry = 0 := rfl
@[simp] theorem resetRegs_syncTimerArmed (s : State) : (s.resetRegs).syncTimerArmed = false := rfl
@[simp] theorem resetRegs_rtxTimerArmed (s : State) : (s.resetRegs).rtxTimerArmed = false := rfl
@[simp] theorem resetRegs_crcTxEnable (s : State) : (s.resetRegs).crcTxEnable = false := rfl
@[simp] theorem resetRegs_nextTxSeq (s : State) : (s.resetRegs).nextTxSeq = 0 := rfl
@[simp] theorem resetRegs_expectedRxSeq (s : State) : (s.resetRegs).expectedRxSeq = 0 := rfl
@[simp] theorem resetRegs_lastPeerAck (s : State) : (s.resetRegs).lastPeerAck = 0 := rfl
@[simp] theorem resetRegs_ackPending (s : State) : (s.resetRegs).ackPending = false := rfl
@[simp] theorem resetRegs_pendUnrelQ (s : State) : (s.resetRegs).pendUnrelQ = [] := rfl
@[simp] theorem resetRegs_pendRelQ (s : State) : (s.resetRegs).pendRelQ = [] := rfl
@[simp] theorem resetRegs_unackQ (s : State) : (s.resetRegs).unackQ = [] := rfl
@[simp] theorem resetRegs_escState (s : State) : (s.resetRegs).escState = .noesc := rfl
@[simp] theorem resetRegs_rxState (s : State) : (s.resetRegs).rxState = .waitDelimiter := rfl
@[simp] theorem resetRegs_rxHdr (s : State) : (s.resetRegs).rxHdr = [] := rfl
@[simp] theorem resetRegs_rxLen (s : State) : (s.resetRegs).rxLen = 0 := rfl
@[simp] theorem resetRegs_rxBuf (s : State) : (s.resetRegs).rxBuf = [] := rfl
@[simp] theorem resetRegs_rxCrc (s : State) : (s.resetRegs).rxCrc = [] := rfl
@[simp] theorem resetRegs_rxHeld (s : State) : (s.resetRegs).rxHeld = false := rfl
@[simp] theorem resetRegs_inboundQ (s : State) : (s.resetRegs).inboundQ = [] := rfl
@[simp] theorem resetRegs_rxIdNext (s : State) : (s.resetRegs).rxIdNext = 0 := rfl
@[simp] theorem resetRegs_params (s : State) : (s.resetRegs).params = s.params := rfl
@[simp] theorem resetRegs_sched (s : State) : (s.resetRegs).sched = s.sched := rfl
@[simp] theorem resetRegs_poolAnswers (s : State) : (s.resetRegs).poolAnswers = s.poolAnswers := rfl
@[simp] theorem resetRegs_poolDraws (s : State) : (s.resetRegs).poolDraws = s.poolDraws := rfl
@[simp] theorem resetRegs_out (s : State) : (s.resetRegs).out = s.out := rfl

/-! ### `hardwareReset`: the same values, and no output (R216) -/

@[simp] theorem hardwareReset_linkState (s : State) : (hardwareReset s).linkState = .idle := rfl
@[simp] theorem hardwareReset_syncRetry (s : State) : (hardwareReset s).syncRetry = 0 := rfl
@[simp] theorem hardwareReset_syncTimerArmed (s : State) : (hardwareReset s).syncTimerArmed = false := rfl
@[simp] theorem hardwareReset_rtxTimerArmed (s : State) : (hardwareReset s).rtxTimerArmed = false := rfl
@[simp] theorem hardwareReset_crcTxEnable (s : State) : (hardwareReset s).crcTxEnable = false := rfl
@[simp] theorem hardwareReset_nextTxSeq (s : State) : (hardwareReset s).nextTxSeq = 0 := rfl
@[simp] theorem hardwareReset_expectedRxSeq (s : State) : (hardwareReset s).expectedRxSeq = 0 := rfl
@[simp] theorem hardwareReset_lastPeerAck (s : State) : (hardwareReset s).lastPeerAck = 0 := rfl
@[simp] theorem hardwareReset_ackPending (s : State) : (hardwareReset s).ackPending = false := rfl
@[simp] theorem hardwareReset_pendUnrelQ (s : State) : (hardwareReset s).pendUnrelQ = [] := rfl
@[simp] theorem hardwareReset_pendRelQ (s : State) : (hardwareReset s).pendRelQ = [] := rfl
@[simp] theorem hardwareReset_unackQ (s : State) : (hardwareReset s).unackQ = [] := rfl
@[simp] theorem hardwareReset_escState (s : State) : (hardwareReset s).escState = .noesc := rfl
@[simp] theorem hardwareReset_rxState (s : State) : (hardwareReset s).rxState = .waitDelimiter := rfl
@[simp] theorem hardwareReset_rxHdr (s : State) : (hardwareReset s).rxHdr = [] := rfl
@[simp] theorem hardwareReset_rxLen (s : State) : (hardwareReset s).rxLen = 0 := rfl
@[simp] theorem hardwareReset_rxBuf (s : State) : (hardwareReset s).rxBuf = [] := rfl
@[simp] theorem hardwareReset_rxCrc (s : State) : (hardwareReset s).rxCrc = [] := rfl
@[simp] theorem hardwareReset_rxHeld (s : State) : (hardwareReset s).rxHeld = false := rfl
@[simp] theorem hardwareReset_inboundQ (s : State) : (hardwareReset s).inboundQ = [] := rfl
@[simp] theorem hardwareReset_rxIdNext (s : State) : (hardwareReset s).rxIdNext = 0 := rfl
@[simp] theorem hardwareReset_params (s : State) : (hardwareReset s).params = s.params := rfl
@[simp] theorem hardwareReset_sched (s : State) : (hardwareReset s).sched = s.sched := rfl
@[simp] theorem hardwareReset_poolAnswers (s : State) : (hardwareReset s).poolAnswers = s.poolAnswers := rfl
@[simp] theorem hardwareReset_poolDraws (s : State) : (hardwareReset s).poolDraws = s.poolDraws := rfl
@[simp] theorem hardwareReset_out (s : State) : (hardwareReset s).out = [] := rfl

end Sys2Proof.Machine
end

