-- ==== Sys2Proof/Laws/Ops.lean ====
section
/-! SUPPORT. One lemma for each shared operation that says once everything it can do; later proofs cite these and unfold no
operation. -/

namespace Sys2Proof.Machine

/-! ### The Packet Pool -/

/-- `acquire` when the environment has put an answer in the state. -/
theorem acquire_answered (n : Nat) (s : State) (b : Bool) (rest : List Bool) (h : s.poolAnswers = b :: rest) :
    acquire n s =
      (b, { s with poolAnswers := rest, out := s.out ++ [.pool (.acquire n s.params.headerReserve)] }) := by
  simp [acquire, State.emit, h]

/-- Everything `acquire` can do: it answers something, and changes only the answers left, the draws and the output. -/
theorem acquire_spec (n : Nat) (s : State) :
    ∃ b rest draws, acquire n s =
      (b, { s with
        poolAnswers := rest
        poolDraws := draws
        out := s.out ++ [.pool (.acquire n s.params.headerReserve)] }) := by
  cases h : s.poolAnswers with
  | nil => exact ⟨Config.poolAnswer s.poolDraws, [], s.poolDraws + 1, by simp [acquire, State.emit, h]⟩
  | cons b rest => exact ⟨b, rest, s.poolDraws, by simp [acquire, State.emit, h]⟩

/-! ### Releasing entries and buffers -/

theorem releaseTx_eq (e : TxEntry) (s : State) : releaseTx e s = { s with out := s.out ++ endEvents [e] } := by
  unfold releaseTx endEvents
  by_cases h : e.callerOwned <;> simp [h, State.emit, free]

/-- `releaseAll` only adds the entries' end events to the output, in order. -/
theorem releaseAll_eq (es : List TxEntry) (s : State) :
    releaseAll es s = { s with out := s.out ++ endEvents es } := by
  induction es generalizing s with
  | nil => simp [releaseAll, endEvents]
  | cons e es ih => simp [releaseAll, ih, releaseTx_eq, endEvents]

/-- `freeAll` only adds one release for each entry to the output, in order. -/
theorem freeAll_eq (es : List RxEntry) (s : State) :
    freeAll es s = { s with out := s.out ++ es.map fun e => .pool (.release e.payload) } := by
  induction es generalizing s with
  | nil => simp [freeAll]
  | cons e es ih => simp [freeAll, ih, free, State.emit]

theorem freeRxBuffer_eq (s : State) :
    freeRxBuffer s = { s with rxHeld := false, out := s.out ++ heldEvents s } := by
  unfold freeRxBuffer heldEvents
  obtain ⟨⟩ := s
  split <;> simp_all [free, State.emit]

/-- `RX_RESET` clears the receive registers and frees a held buffer; it touches no ARQ or link state (R107). -/
theorem rxReset_eq (target : RxState) (s : State) :
    rxReset target s =
      { s with
        rxState := target
        escState := .noesc
        rxHdr := []
        rxBuf := []
        rxCrc := []
        rxLen := 0
        rxHeld := false
        out := s.out ++ heldEvents s } := by
  simp [rxReset, freeRxBuffer_eq]

/-- A dropped frame: the diagnostic, then the reset of the assembler. -/
theorem dropFrame_eq (code : ErrCode) (target : RxState) (s : State) :
    dropFrame code target s =
      { s with
        rxState := target
        escState := .noesc
        rxHdr := []
        rxBuf := []
        rxCrc := []
        rxLen := 0
        rxHeld := false
        out := s.out ++ .diag code :: heldEvents s } := by
  simp [dropFrame, rxReset_eq, heldEvents, State.emit]

/-! ### PRUNE -/

/-- The number of entries PRUNE removes, and its events. -/
theorem prune_eq (a : SeqNum) (s : State) :
    ∃ k events,
      (∀ j, ackIndex s.nextTxSeq a s.unackQ.length = some j →
        k = s.unackQ.length - j ∧ events = endEvents (s.unackQ.take k)) ∧
      (ackIndex s.nextTxSeq a s.unackQ.length = none → k = 0 ∧ events = [.diag .invalidAck]) ∧
      prune a s =
        { s with
          unackQ := s.unackQ.drop k
          rtxTimerArmed := s.rtxTimerArmed && !(s.unackQ.drop k).isEmpty
          out := s.out ++ events ++ if (s.unackQ.drop k).isEmpty then [.timer .rtx .stop] else [] } := by
  cases h : ackIndex s.nextTxSeq a s.unackQ.length with
  | none =>
    refine ⟨0, [.diag .invalidAck], by simp, by simp, ?_⟩
    cases hq : s.unackQ with
    | nil => simp_all [prune, stopRtxTimer, State.emit]
    | cons e q => simp_all [prune, State.emit]
  | some j =>
    refine ⟨s.unackQ.length - j, endEvents (s.unackQ.take (s.unackQ.length - j)), by simp, by simp, ?_⟩
    by_cases hq : s.unackQ.drop (s.unackQ.length - j) = []
    · simp only [prune, h, hq, releaseAll_eq, if_true, stopRtxTimer, State.emit, List.isEmpty_nil, Bool.not_true,
        Bool.and_false]
    · simp only [prune, h, hq, releaseAll_eq, if_false]
      cases hd : s.unackQ.drop (s.unackQ.length - j) with
      | nil => exact absurd hd hq
      | cons e q => simp

/-- `PRUNE` finds the distance of the acknowledgment from `next_tx_seq`, when that is at most `n < 8`. -/
theorem ackIndex_eq (next a : SeqNum) (n : Nat) (hn : n < 8) :
    ackIndex next a n = if (next - a).toNat ≤ n then some (next - a).toNat else none := by
  revert next a
  interval_cases n <;> decide +revert

/-! ### LC_SEND and LC_RX -/

/-- Everything LC_SEND can do (R159): it asks the pool; the message is queued, or lost with a diagnostic. -/
theorem lcSend_spec (m : LcMsg) (s : State) :
    ∃ ok rest draws, acquire (lcPayload s.params m).length s =
        (ok, { s with
          poolAnswers := rest
          poolDraws := draws
          out := s.out ++ [.pool (.acquire (lcPayload s.params m).length s.params.headerReserve)] }) ∧
      lcSend m s =
        { s with
          poolAnswers := rest
          poolDraws := draws
          pendUnrelQ := s.pendUnrelQ ++ if ok then [lcEntry (lcPayload s.params m)] else []
          out := s.out ++ [.pool (.acquire (lcPayload s.params m).length s.params.headerReserve)] ++
            if ok then [] else [.diag .allocationFailure] } := by
  obtain ⟨b, rest, draws, h⟩ := acquire_spec (lcPayload s.params m).length s
  refine ⟨b, rest, draws, h, ?_⟩
  cases b <;> simp [lcSend, h, enqTail, State.emit]

/-- LC_SEND with the pool's answer put in the state. -/
theorem lcSend_answered (m : LcMsg) (s : State) (ok : Bool) (rest : List Bool) (h : s.poolAnswers = ok :: rest) :
    lcSend m s =
      { s with
        poolAnswers := rest
        pendUnrelQ := s.pendUnrelQ ++ if ok then [lcEntry (lcPayload s.params m)] else []
        out := s.out ++ [.pool (.acquire (lcPayload s.params m).length s.params.headerReserve)] ++
          if ok then [] else [.diag .allocationFailure] } := by
  cases ok <;> simp [lcSend, acquire_answered _ _ _ _ h, enqTail, State.emit]

/-- TX_PULL's last two branches, by what the link state allows (R137, R138). -/
theorem pullAckOrNone_eq (s : State) :
    pullAckOrNone s =
      if s.ackPending = true ∧ ackAllowed s.linkState = true then
        { s with ackPending := false, out := s.out ++ [.txFrame (frameBytes s ptAck false 0 [])] }
      else { s with out := s.out ++ [.txNone] } := by
  simp [pullAckOrNone, pullAck, State.emit, State.clearAckPending]

/-- Before ACTIVE the free value decides (R134, R200; log entry 18). -/
theorem ackAllowed_handshake {l : LinkState} (h : l = .syncing ∨ l = .configuring) : ackAllowed l = Config.ackBeforeActive := by
  rcases h with rfl | rfl <;> rfl

end Sys2Proof.Machine
end

