-- ==== Sys2Proof/Laws/Receive.lean ====
section
/-! SUPPORT. What receiving bytes does, in steps: the link controller's part, one body byte, a whole escaped body, a whole
frame. Later proofs cite these and unfold neither the assembler nor the codec. -/

namespace Sys2Proof.Machine

/-! ### The link controller -/

/-- Every message LC_SEND sends is short. -/
theorem lcPayload_length (p : Params) (m : LcMsg) : (lcPayload p m).length ≤ 3 := by
  cases m <;> cases h : p.cfgTx <;> cases h' : p.cfgRspTx <;> simp [lcPayload, lcPair, h, h']

/-- LC_SEND, without the pool's part. -/
theorem lcSend_shape (m : LcMsg) (s : State) :
    ∃ q rest draws events, lcSend m s =
        { s with
          poolAnswers := rest
          poolDraws := draws
          pendUnrelQ := s.pendUnrelQ ++ q
          out := s.out ++ events } ∧
      ∀ e ∈ q, e.ptype = ptLinkControl ∧ e.reliable = false ∧ e.payload.length ≤ 3 := by
  obtain ⟨ok, rest, draws, -, h⟩ := lcSend_spec m s
  refine ⟨_, rest, draws, _, by rw [h, List.append_assoc], ?_⟩
  cases ok <;> simp [lcEntry, lcPayload_length]

/-- What a received link-control message may do to a state (R165 to R174): the link state moves along one of the two edges
of the handshake, with the flags that go with it, or not at all; short unreliable link-control entries are queued; the other registers
stay. -/
def LcEffect (s t : State) : Prop :=
  ∃ link sync rtx crc q rest draws events, t =
      { s with
        linkState := link
        syncTimerArmed := sync
        rtxTimerArmed := rtx
        crcTxEnable := crc
        poolAnswers := rest
        poolDraws := draws
        pendUnrelQ := s.pendUnrelQ ++ q
        out := s.out ++ events } ∧
    ((link = s.linkState ∧ sync = s.syncTimerArmed ∧ rtx = s.rtxTimerArmed ∧ crc = s.crcTxEnable) ∨
     (s.linkState = .syncing ∧ link = .configuring ∧ sync = false ∧ rtx = true ∧ crc = s.crcTxEnable) ∨
     (s.linkState = .configuring ∧ link = .active ∧ sync = s.syncTimerArmed ∧ rtx = s.rtxTimerArmed)) ∧
    ∀ e ∈ q, e.ptype = ptLinkControl ∧ e.reliable = false ∧ e.payload.length ≤ 3

theorem lcEffect_refl (s : State) : LcEffect s s :=
  ⟨s.linkState, s.syncTimerArmed, s.rtxTimerArmed, s.crcTxEnable, [], s.poolAnswers, s.poolDraws, [], by simp,
    .inl ⟨rfl, rfl, rfl, rfl⟩, by simp⟩

theorem lcEffect_send {s t : State} (m : LcMsg) (h : LcEffect s t) : LcEffect s (lcSend m t) := by
  obtain ⟨link, sync, rtx, crc, q, rest, draws, events, rfl, h, hq⟩ := h
  obtain ⟨q', rest', draws', events', e, hq'⟩ := lcSend_shape m
    { s with
      linkState := link
      syncTimerArmed := sync
      rtxTimerArmed := rtx
      crcTxEnable := crc
      poolAnswers := rest
      poolDraws := draws
      pendUnrelQ := s.pendUnrelQ ++ q
      out := s.out ++ events }
  refine ⟨link, sync, rtx, crc, q ++ q', rest', draws', events ++ events', by rw [e]; simp, h, ?_⟩
  intro e he
  exact (List.mem_append.mp he).elim (hq e) (hq' e)

/-- Everything LC_RX can do. -/
theorem lcRx_effect (payload : List Byte) (s : State) : LcEffect s (lcRx payload s) := by
  unfold lcRx
  split
  · exact lcEffect_send _ (lcEffect_refl s)
  · unfold rxSyncRsp
    split
    · next hl =>
      refine lcEffect_send _ ⟨.configuring, false, true, s.crcTxEnable, [], s.poolAnswers, s.poolDraws,
        [.timer .sync .stop, .timer .rtx (.start s.params.rtxInterval)], ?_, .inr (.inl ⟨hl, rfl, rfl, rfl, rfl⟩),
        by simp⟩
      simp [startRtxTimer, stopSyncTimer, State.emit]
    · exact lcEffect_refl s
  · unfold rxConfig
    split
    · exact lcEffect_send _ (lcEffect_send _ (lcEffect_refl s))
    · exact lcEffect_send _ (lcEffect_refl s)
    all_goals exact lcEffect_refl s
  · unfold rxConfigRsp
    split
    · next hl =>
      exact ⟨.active, s.syncTimerArmed, s.rtxTimerArmed, _, [], s.poolAnswers, s.poolDraws, [.notify .active],
        by simp only [State.emit, List.append_nil]; rfl, .inr (.inr ⟨hl, rfl, rfl, rfl⟩), by simp⟩
    · exact lcEffect_refl s
  · exact ⟨s.linkState, s.syncTimerArmed, s.rtxTimerArmed, s.crcTxEnable, [], s.poolAnswers, s.poolDraws,
      [.diag .linkControlProtocolError], by simp [rxUnknown, State.emit], .inl ⟨rfl, rfl, rfl, rfl⟩, by simp⟩

/-! ### One body byte -/

/-- Inside a frame, or skipping the rest of a dropped one, and not inside an escape: where body bytes may follow. -/
abbrev Ready (s : State) : Prop := s.linkState ≠ .idle ∧ s.escState = .noesc ∧ s.rxState ≠ .waitFrameStart

theorem prune_shape (a : SeqNum) (s : State) :
    ∃ k armed events, prune a s =
        { s with unackQ := s.unackQ.drop k, rtxTimerArmed := armed, out := s.out ++ events } ∧
      (armed = true → s.rtxTimerArmed = true) := by
  obtain ⟨k, events, -, -, h⟩ := prune_eq a s
  exact ⟨k, _, _, by rw [h, List.append_assoc], fun h => (Bool.and_eq_true _ _ ▸ h).1⟩

@[simp] theorem prune_linkState (a : SeqNum) (s : State) : (prune a s).linkState = s.linkState := by
  obtain ⟨k, armed, events, h, -⟩ := prune_shape a s
  rw [h]

/-- Committing a frame is what the statements say it is. -/
theorem commitFrame_eq (h : HdrFields) (s : State) : commitFrame h s = commits h s := by
  unfold commitFrame commits
  cases h.reliable <;> simp

theorem commitFrame_linkState (h : HdrFields) (s : State) : (commitFrame h s).linkState = s.linkState := by
  unfold commitFrame
  split <;> simp

theorem lcRx_open (payload : List Byte) (s : State) (h : s.linkState ≠ .idle) : (lcRx payload s).linkState ≠ .idle := by
  obtain ⟨link, sync, rtx, crc, q, rest, draws, events, e, c, -⟩ := lcRx_effect payload s
  rw [e]
  rcases c with ⟨c, -⟩ | ⟨-, c, -⟩ | ⟨-, c, -⟩ <;> simp [c, h]

theorem classify_open (ptype : PType) (s : State) (h : s.linkState ≠ .idle) : (classify ptype s).linkState ≠ .idle := by
  unfold classify
  split
  · simpa [freeRxBuffer_eq] using h
  · split
    · simpa [freeRxBuffer_eq] using lcRx_open s.rxBuf s h
    · simpa [deliverUp] using h

/-- DELIVER leaves the assembler waiting for a delimiter, and the link open. -/
theorem deliver_ready (s : State) (h : s.linkState ≠ .idle) : Ready (deliver s) := by
  simp only [Ready, deliver, rxReset_eq]
  exact ⟨classify_open _ _ (by rwa [commitFrame_linkState]), by simp⟩

theorem dropFrame_ready (code : ErrCode) (s : State) (h : s.linkState ≠ .idle) :
    Ready (dropFrame code .waitDelimiter s) := by
  simpa [Ready, dropFrame_eq] using h

theorem payloadComplete_ready (s : State) (h : Ready s) : Ready (payloadComplete s) := by
  unfold payloadComplete
  split
  · exact ⟨h.1, h.2.1, by simp⟩
  · exact deliver_ready s h.1

theorem headerComplete_ready (s : State) (h : Ready s) : Ready (headerComplete s) := by
  unfold headerComplete
  dsimp only
  split
  · exact dropFrame_ready _ _ h.1
  split
  · exact dropFrame_ready _ _ h.1
  split
  · exact dropFrame_ready _ _ h.1
  obtain ⟨b, rest, draws, e⟩ := acquire_spec ((hdrFields s.rxHdr).len.toNat + Config.hdrLen) s
  rw [e]
  cases b
  · exact dropFrame_ready _ _ h.1
  · simp only [headerAccepted]
    split
    · exact payloadComplete_ready _ ⟨h.1, h.2⟩
    · exact ⟨h.1, h.2.1, by simp⟩

/-- A body byte leaves the assembler where body bytes may follow. -/
theorem bodyByte_ready (v : Byte) (s : State) (h : Ready s) : Ready (bodyByte v s) := by
  unfold bodyByte
  split
  · unfold headerByte
    dsimp only
    split
    · exact headerComplete_ready _ ⟨h.1, h.2⟩
    · exact ⟨h.1, h.2⟩
  · unfold payloadByte
    dsimp only
    split
    · exact payloadComplete_ready _ ⟨h.1, h.2⟩
    · exact ⟨h.1, h.2⟩
  · unfold crcTrailerByte
    dsimp only
    split
    · unfold crcComplete
      split
      · exact dropFrame_ready _ _ h.1
      · exact deliver_ready _ h.1
    · exact ⟨h.1, h.2⟩
  all_goals exact h

/-! ### A body, escaped -/

theorem receiveBytes_append (xs ys : List Byte) (s : State) :
    receiveBytes (xs ++ ys) s = receiveBytes ys (receiveBytes xs s) := by
  induction xs generalizing s with
  | nil => rfl
  | cons x xs ih => exact ih _

/-- The body bytes one after the other, without the codec. -/
def feed (body : List Byte) (s : State) : State := body.foldl (fun s v => bodyByte v s) s

@[simp] theorem feed_nil (s : State) : feed [] s = s := rfl
@[simp] theorem feed_cons (v : Byte) (vs : List Byte) (s : State) : feed (v :: vs) s = feed vs (bodyByte v s) := rfl
theorem feed_append (xs ys : List Byte) (s : State) : feed (xs ++ ys) s = feed ys (feed xs s) := by simp [feed]

theorem feed_ready (body : List Byte) (s : State) (h : Ready s) : Ready (feed body s) := by
  induction body generalizing s with
  | nil => exact h
  | cons v vs ih => exact ih _ (bodyByte_ready v s h)

theorem receiveByte_inFrame (b : Byte) (s : State) (hl : s.linkState ≠ .idle) (h : InFrame s) :
    receiveByte b s = frameByte b s := by
  rcases h with h | h | h <;> simp [receiveByte, hl, h]

theorem receiveByte_skip (b : Byte) (s : State) (h : s.rxState = .waitDelimiter) (hb : b ≠ Config.delimByte) :
    receiveByte b s = s := by
  simp [receiveByte, h, hb]

/-- `ESC_MAP` gives a byte itself, or the escape byte and a code that decodes to it (R92, R97). -/
theorem escMap_cases (sw : Bool) (b : Byte) :
    (escMap sw b = [b] ∧ b ≠ Config.delimByte ∧ b ≠ Config.escByte) ∨
    ∃ c, escMap sw b = [Config.escByte, c] ∧ c ≠ Config.delimByte ∧ unescape c = .byte b := by
  revert b; cases sw <;> decide

/-- A byte's wire form inside a frame, also when the frame's first byte is still awaited there. -/
theorem frame_escMap (sw : Bool) (b : Byte) (s : State) (hl : s.linkState ≠ .idle) (he : s.escState = .noesc)
    (h : InFrame s) : receiveBytes (escMap sw b) s = bodyByte b s := by
  have same : ({ s with escState := .noesc } : State) = s := by rw [← he]
  rcases escMap_cases sw b with ⟨e, h1, h2⟩ | ⟨c, e, -, hc⟩
  · simp only [e, receiveBytes, receiveByte_inFrame _ _ hl h, frameByte, he, decodeByte, h1, h2, if_false]
    rw [same]
  · have hd : Config.escByte ≠ Config.delimByte := by decide
    simp only [e, receiveBytes, receiveByte_inFrame _ _ hl h, frameByte, he, decodeByte, hd, if_false, if_true]
    rw [receiveByte_inFrame _ { s with escState := .esc } hl h]
    simp only [frameByte, decodeByte, hc]
    rw [same]

/-- The codec: the wire form of a byte decodes to that byte, whatever the flow setting (R94). -/
theorem receive_escMap (sw : Bool) (b : Byte) (s : State) (h : Ready s) :
    receiveBytes (escMap sw b) s = bodyByte b s := by
  obtain ⟨hl, he, hf⟩ := h
  by_cases hw : s.rxState = .waitDelimiter
  · have hb : bodyByte b s = s := by simp [bodyByte, hw]
    rw [hb]
    have hd : Config.escByte ≠ Config.delimByte := by decide
    rcases escMap_cases sw b with ⟨e, h1, -⟩ | ⟨c, e, h1, -⟩
    · simp [e, receiveBytes, receiveByte_skip _ _ hw h1]
    · simp [e, receiveBytes, receiveByte_skip _ _ hw hd, receiveByte_skip _ _ hw h1]
  · exact frame_escMap sw b s hl he (by cases h : s.rxState <;> simp_all [InFrame])

/-- An escaped body, received where body bytes may follow, is its bytes one after the other. -/
theorem receive_escBody (sw : Bool) (body : List Byte) (s : State) (h : Ready s) :
    receiveBytes (escBody sw body) s = feed body s := by
  induction body generalizing s with
  | nil => rfl
  | cons v vs ih =>
    rw [escBody, receiveBytes_append, receive_escMap sw v s h, ih _ (bodyByte_ready v s h), feed_cons]

/-- The state in which the first byte of a frame is taken (R109). -/
def frameOpen (s : State) : State := { s with rxState := .waitHeader, rxHdr := [], escState := .noesc }

theorem receive_firstByte (sw : Bool) (b : Byte) (s : State) (hl : s.linkState ≠ .idle)
    (h : s.rxState = .waitFrameStart) : receiveBytes (escMap sw b) s = bodyByte b (frameOpen s) := by
  have go : ∀ x ys, x ≠ Config.delimByte →
      receiveBytes (x :: ys) s = receiveBytes (x :: ys) (frameOpen s) := by
    intro x ys hx
    simp only [receiveBytes]
    rw [receiveByte_inFrame x (frameOpen s) hl (.inl rfl)]
    simp [receiveByte, hl, h, hx, frameOpen]
  rw [← frame_escMap sw b (frameOpen s) hl rfl (.inl rfl)]
  rcases escMap_cases sw b with ⟨e, h1, -⟩ | ⟨c, e, -, -⟩ <;> rw [e]
  · exact go _ _ h1
  · exact go _ _ (by decide)

/-- A delimiter between two frames (R100, R108). -/
theorem receive_delim (s : State) (hl : s.linkState ≠ .idle) (h : AtBoundary s) :
    receiveByte Config.delimByte s = { s with rxState := .waitFrameStart } := by
  rcases h with h | h <;> simp [receiveByte, hl, h]
  rw [← h]

/-- A frame without its closing delimiter, arriving between two frames, is its body bytes one after the other. -/
theorem receive_openFrame (sw : Bool) (b : Byte) (body : List Byte) (s : State) (hl : s.linkState ≠ .idle)
    (h : AtBoundary s) :
    receiveBytes (Config.delimByte :: escBody sw (b :: body)) s = feed (b :: body) (frameOpen s) := by
  have hr : Ready (bodyByte b (frameOpen s)) := bodyByte_ready _ _ ⟨hl, rfl, by simp [frameOpen]⟩
  rw [receiveBytes, receive_delim s hl h, escBody, receiveBytes_append,
    receive_firstByte sw b { s with rxState := .waitFrameStart } hl rfl, feed_cons,
    show frameOpen { s with rxState := .waitFrameStart } = frameOpen s from rfl, receive_escBody sw body _ hr]

/-! ### The parts of a frame -/

theorem feed_header (a b c d : Byte) (s : State) (h : s.rxState = .waitHeader) (hh : s.rxHdr = []) :
    feed [a, b, c, d] s = headerComplete { s with rxHdr := [a, b, c, d] } := by
  simp [feed, bodyByte, headerByte, h, hh, Config.hdrLen]

theorem feed_payload (p : List Byte) (s : State) (h : s.rxState = .waitPayload) (hp : p ≠ [])
    (hl : s.rxBuf.length + p.length = s.rxLen.toNat) :
    feed p s = payloadComplete { s with rxBuf := s.rxBuf ++ p } := by
  induction p generalizing s with
  | nil => exact absurd rfl hp
  | cons v vs ih =>
    rw [feed_cons]
    cases vs with
    | nil => simp_all [bodyByte, payloadByte]
    | cons w ws =>
      have hn : ¬ (s.rxBuf ++ [v]).length = s.rxLen.toNat := by
        simp at hl ⊢
        omega
      have hb : bodyByte v s = { s with rxBuf := s.rxBuf ++ [v] } := by
        simp only [bodyByte, h, payloadByte, hn, if_false]
      rw [hb, ih { s with rxBuf := s.rxBuf ++ [v] } h (by simp) (by simp at hl ⊢; omega)]
      simp

theorem feed_trailer (a b : Byte) (s : State) (h : s.rxState = .waitCrc) (hc : s.rxCrc = []) :
    feed [a, b] s = crcComplete { s with rxCrc := [a, b] } := by
  simp [feed, bodyByte, crcTrailerByte, h, hc, Config.crcLen]

/-- Bytes after a dropped or delivered frame are skipped (R108). -/
theorem feed_skip (body : List Byte) (s : State) (h : s.rxState = .waitDelimiter) : feed body s = s := by
  induction body with
  | nil => rfl
  | cons v vs ih => rw [feed_cons, show bodyByte v s = s by simp [bodyByte, h], ih]

/-! ### A whole frame -/

/-- A frame whose header passes the four checks, up to the end of its payload. -/
theorem feed_accepted (ptype : PType) (h : HdrFields) (payload : List Byte) (s : State)
    (hs : s.rxState = .waitHeader) (hh : s.rxHdr = []) (hk : h.checksum = rightChecksum ptype h)
    (hg : ptype ≠ ptLinkControl → s.linkState = .active) (hq : h.reliable = true → h.seq = s.expectedRxSeq)
    (hlen : h.len.toNat = payload.length) (answers : List Bool) (ha : s.poolAnswers = true :: answers) :
    feed (hdrBytes ptype h ++ payload) s =
      payloadComplete
        { s with
          rxState := if payload = [] then .waitHeader else .waitPayload
          rxHdr := hdrBytes ptype h
          rxLen := h.len
          rxBuf := payload
          rxHeld := true
          poolAnswers := answers
          out := s.out ++ [.pool (.acquire (payload.length + 4) s.params.headerReserve)] } := by
  have e1 : hdrType (hdrBytes ptype h) = ptype := by simpa using hdrType_hdrBytes ptype h []
  have e2 : hdrFields (hdrBytes ptype h) = h := by simpa using hdrFields_hdrBytes ptype h []
  have e3 : checksumOk (hdrBytes ptype h) = true := by
    have := checksumOk_hdrBytes ptype h []
    rw [List.append_nil] at this
    rw [this, hk]
    simp
  have hg' : ¬ (ptype ≠ ptLinkControl ∧ s.linkState ≠ .active) := fun ⟨a, b⟩ => b (hg a)
  have hq' : ¬ (h.reliable = true ∧ h.seq ≠ s.expectedRxSeq) := fun ⟨a, b⟩ => b (hq a)
  rw [feed_append, hdrBytes, feed_header _ _ _ _ _ hs hh, ← hdrBytes]
  simp only [headerComplete, e1, e2, e3, Bool.not_true, Bool.false_eq_true, if_false, hg', hq']
  rw [acquire_answered _ _ _ answers (by exact ha)]
  simp only [headerAccepted, hlen, Config.hdrLen]
  cases payload with
  | nil =>
    have : h.len = 0 := BitVec.eq_of_toNat_eq (by simpa using hlen)
    simp [this, hs]
  | cons v vs =>
    have : h.len ≠ 0 := fun e => by simp [e] at hlen
    simp only [this, if_false]
    rw [feed_payload _ _ rfl (by simp) (by simp [hlen])]
    simp

/-- The trailer is right exactly when its two bytes are the CRC's (R67, R119). -/
theorem trailerValue_eq_iff (t0 t1 : Byte) (body : List Byte) :
    trailerValue t0 t1 = crc16 body ↔ [t0, t1] = crcTrailer body := by
  have e : trailerValue t0 t1 = t0 ++ t1 := by
    unfold trailerValue
    apply BitVec.eq_of_getLsbD_eq
    intro i hi
    simp only [BitVec.getLsbD_append, BitVec.getLsbD_or, BitVec.getLsbD_shiftLeft, BitVec.getLsbD_setWidth]
    interval_cases i <;> simp
  have k : ∀ j, (t0 ++ t1 : Word16).getLsbD j = if j < 8 then t1.getLsbD j else t0.getLsbD (j - 8) :=
    fun j => BitVec.getLsbD_append
  rw [e, crcTrailer]
  constructor
  · intro h
    rw [← h, List.cons.injEq, List.cons.injEq]
    refine ⟨?_, ?_, rfl⟩ <;>
    · apply BitVec.eq_of_getLsbD_eq
      intro i hi
      rw [BitVec.getLsbD_extractLsb', k]
      simp [hi]
  · intro h
    simp only [List.cons.injEq, and_true] at h
    obtain ⟨rfl, rfl⟩ := h
    apply BitVec.eq_of_getLsbD_eq
    intro i hi
    simp only [BitVec.getLsbD_append, BitVec.getLsbD_extractLsb']
    by_cases h : i < 8
    · simp [h]
    · simp [h, show i - 8 < 8 by omega, show 8 + (i - 8) = i by omega]

/-- PRUNE neither reads nor writes the receive registers. -/
theorem prune_receive (a : SeqNum) (s : State) (rx : RxState) (code : EscState) (hdr buf crc : List Byte) (len : PLen)
    (held : Bool) :
    prune a { s with rxState := rx, escState := code, rxHdr := hdr, rxLen := len, rxBuf := buf, rxCrc := crc, rxHeld := held } =
      { prune a s with rxState := rx, escState := code, rxHdr := hdr, rxLen := len, rxBuf := buf, rxCrc := crc, rxHeld := held } := by
  simp only [prune]
  cases h : ackIndex s.nextTxSeq a s.unackQ.length with
  | none => by_cases hq : s.unackQ = [] <;> simp [hq, State.emit, stopRtxTimer]
  | some j =>
    simp only [releaseAll_eq]
    split <;> simp [State.emit, stopRtxTimer]

/-- LC_RX neither reads nor writes the receive registers. -/
theorem lcRx_receive (payload : List Byte) (s : State) (rx : RxState) (code : EscState) (hdr buf crc : List Byte)
    (len : PLen) (held : Bool) :
    lcRx payload
        { s with rxState := rx, escState := code, rxHdr := hdr, rxLen := len, rxBuf := buf, rxCrc := crc, rxHeld := held } =
      { lcRx payload s with
        rxState := rx, escState := code, rxHdr := hdr, rxLen := len, rxBuf := buf, rxCrc := crc, rxHeld := held } := by
  have send : ∀ (m : LcMsg) (s : State),
      lcSend m
          { s with rxState := rx, escState := code, rxHdr := hdr, rxLen := len, rxBuf := buf, rxCrc := crc, rxHeld := held } =
        { lcSend m s with
          rxState := rx, escState := code, rxHdr := hdr, rxLen := len, rxBuf := buf, rxCrc := crc, rxHeld := held } := by
    intro m s
    cases h : s.poolAnswers with
    | nil => cases h' : Config.poolAnswer s.poolDraws <;> simp [lcSend, acquire, State.emit, h, h']
    | cons b rest => cases b <;> simp [lcSend, acquire, State.emit, h]
  unfold lcRx
  split
  · exact send _ _
  · unfold rxSyncRsp
    dsimp only
    split
    · exact send .config { startRtxTimer (stopSyncTimer s) with linkState := .configuring }
    · rfl
  · unfold rxConfig
    dsimp only
    split
    · rw [send, send]
    · exact send _ _
    all_goals rfl
  · unfold rxConfigRsp
    dsimp only
    split <;> rfl
  · rfl

/-- DELIVER with a held buffer comes to `delivery` (R120 to R124). -/
theorem deliver_eq (s : State) (hs : s.rxHeld = true) :
    deliver s = delivery (hdrType s.rxHdr) (hdrFields s.rxHdr) s.rxBuf s := by
  have hc : ∀ (h : HdrFields) (s : State), commits h (emptied s) = emptied (commits h s) := fun h s => by
    unfold commits emptied
    exact prune_receive h.ack
      { s with
        expectedRxSeq := if h.reliable then h.seq + 1 else s.expectedRxSeq
        ackPending := s.ackPending || h.reliable
        lastPeerAck := h.ack } .waitDelimiter .noesc [] [] [] 0 false
  have hl : ∀ (b : List Byte) (s : State), lcRx b (emptied s) = emptied (lcRx b s) := fun b s =>
    lcRx_receive b s .waitDelimiter .noesc [] [] [] 0 false
  have hheld : ∀ (h : HdrFields) (s : State), (commits h s).rxHeld = s.rxHeld ∧ (commits h s).rxBuf = s.rxBuf := by
    intro h s
    obtain ⟨k, armed, events, e, -⟩ := prune_shape h.ack
      { s with
        expectedRxSeq := if h.reliable then h.seq + 1 else s.expectedRxSeq
        ackPending := s.ackPending || h.reliable
        lastPeerAck := h.ack }
    rw [commits, e]
    exact ⟨rfl, rfl⟩
  obtain ⟨h1, h2⟩ := hheld (hdrFields s.rxHdr) s
  rw [deliver, commitFrame_eq, rxReset_eq, classify, delivery]
  simp only [hc, hl]
  split
  · simp [freeRxBuffer_eq, heldEvents, h1, h2, hs, emptied]
  · split
    · obtain ⟨link, sync, rtx, c, q, rest, draws, events, e', -, -⟩ := lcRx_effect s.rxBuf (commits (hdrFields s.rxHdr) s)
      rw [h2, e']
      simp [freeRxBuffer_eq, heldEvents, h1, h2, hs, emptied]
    · simp [deliverUp, heldEvents, h2, emptied, enqTail, State.emit]

/-- A frame that passes every check, with its trailer if it has one, is delivered: its effect is that of committing it and
classifying it. -/
theorem feed_frame (ptype : PType) (h : HdrFields) (payload : List Byte) (s : State)
    (hs : s.rxState = .waitHeader) (hh : s.rxHdr = []) (hk : h.checksum = rightChecksum ptype h)
    (hg : ptype ≠ ptLinkControl → s.linkState = .active) (hq : h.reliable = true → h.seq = s.expectedRxSeq)
    (hlen : h.len.toNat = payload.length) (answers : List Bool) (ha : s.poolAnswers = true :: answers)
    (ho : s.out = []) :
    ∃ rx crc, feed (hdrBytes ptype h ++ frameRest ptype h payload) s =
      rxReset .waitDelimiter (classify ptype
        { committed h answers s with
          rxState := rx
          escState := s.escState
          rxHdr := hdrBytes ptype h
          rxLen := h.len
          rxBuf := payload
          rxCrc := crc
          rxHeld := true }) := by
  have e1 : hdrType (hdrBytes ptype h) = ptype := by simpa using hdrType_hdrBytes ptype h []
  have e2 : hdrFields (hdrBytes ptype h) = h := by simpa using hdrFields_hdrBytes ptype h []
  have del : ∀ rx crc, deliver
      { s with
        rxState := rx
        rxHdr := hdrBytes ptype h
        rxLen := h.len
        rxBuf := payload
        rxCrc := crc
        rxHeld := true
        poolAnswers := answers
        out := s.out ++ [.pool (.acquire (payload.length + 4) s.params.headerReserve)] } =
      rxReset .waitDelimiter (classify ptype
        { committed h answers s with
          rxState := rx
          escState := s.escState
          rxHdr := hdrBytes ptype h
          rxLen := h.len
          rxBuf := payload
          rxCrc := crc
          rxHeld := true }) := by
    intro rx crc
    rw [deliver]
    dsimp only
    rw [e1, e2, commitFrame_eq, committed, commits, commits, ← prune_receive]
    simp [ho, hlen, Config.hdrLen]
  unfold frameRest
  cases hc : h.crcPresent with
  | false =>
    simp only [Bool.false_eq_true, if_false, List.append_nil]
    rw [feed_accepted ptype h payload s hs hh hk hg hq hlen answers ha, payloadComplete]
    simp only [e2, hc, Bool.false_eq_true, if_false]
    exact ⟨_, _, del _ _⟩
  | true =>
    simp only [if_true]
    rw [← List.append_assoc, feed_append, feed_accepted ptype h payload s hs hh hk hg hq hlen answers ha, payloadComplete]
    simp only [e2, hc, if_true]
    rw [crcTrailer, feed_trailer _ _ _ rfl rfl, crcComplete]
    have ht := (trailerValue_eq_iff _ _ (hdrBytes ptype h ++ payload)).mpr rfl
    simp only [List.getD_cons_zero, List.getD_cons_succ, ht, ne_eq, not_true_eq_false, if_false]
    exact ⟨_, _, del _ _⟩

end Sys2Proof.Machine
end

