-- ==== Sys2Proof/Laws/Frames.lean ====
section
/-! SUPPORT. Whole frames and messages as instructions: which meaning each header row has, and what an accepted frame and a
link-control message come to. -/

namespace Sys2Proof.Machine

/-- Every header row is a frame of its packet type. -/
theorem allFrames_exec {h : HdrFields} {rest : List Byte} {ptype : PType} {i : Instr}
    (hm : (ptype, i) ∈ allFrames h rest) (s : State) : exec i s = receiveFrame ptype h rest s := by
  have every : (allFrames h rest).Forall fun f => exec f.2 s = receiveFrame f.1 h rest s := by
    simp only [allFrames, List.Forall]
    repeat' constructor
  exact List.forall_iff_forall_mem.mp every _ hm

/-- The ordinary rows are the header rows of another type than ACK and LINK_CONTROL. -/
theorem ordinaryFrames_eq (h : HdrFields) (rest : List Byte) :
    ordinaryFrames h rest = (allFrames h rest).filter fun f => f.1 ≠ ptAck ∧ f.1 ≠ ptLinkControl := rfl

theorem ordinaryFrames_mem {h : HdrFields} {rest : List Byte} {ptype : PType} {i : Instr}
    (hm : (ptype, i) ∈ ordinaryFrames h rest) : (ptype, i) ∈ allFrames h rest ∧ ptype ≠ ptAck ∧ ptype ≠ ptLinkControl := by
  simpa [ordinaryFrames_eq] using hm

/-- A header and what follows it, arriving between two frames. -/
theorem receive_hdrBytes (sw : Bool) (ptype : PType) (h : HdrFields) (rest : List Byte) (s : State)
    (hl : s.linkState ≠ .idle) (hb : AtBoundary s) :
    receiveBytes (Config.delimByte :: escBody sw (hdrBytes ptype h ++ rest)) s =
      feed (hdrBytes ptype h ++ rest) (frameOpen s) := by
  rw [hdrBytes, List.cons_append, receive_openFrame _ _ _ _ hl hb]

/-- What `committed` changes, in the shape of one record. -/
theorem committed_shape (h : HdrFields) (answers : List Bool) (s : State) :
    ∃ k armed events, committed h answers s =
      { s with
        poolAnswers := answers
        expectedRxSeq := if h.reliable then h.seq + 1 else s.expectedRxSeq
        ackPending := s.ackPending || h.reliable
        lastPeerAck := h.ack
        unackQ := s.unackQ.drop k
        rtxTimerArmed := armed
        out := .pool (.acquire (h.len.toNat + Config.hdrLen) s.params.headerReserve) :: events } := by
  obtain ⟨k, armed, events, e, -⟩ := prune_shape h.ack
    { s with
      poolAnswers := answers
      expectedRxSeq := if h.reliable then h.seq + 1 else s.expectedRxSeq
      ackPending := s.ackPending || h.reliable
      lastPeerAck := h.ack
      out := [.pool (.acquire (h.len.toNat + Config.hdrLen) s.params.headerReserve)] }
  exact ⟨k, armed, events, e⟩

/-- A frame that passes every check, arriving between two frames: committed, then classified with its payload in the
receive buffer. The wire form may be escaped by either setting. -/
theorem receive_passing (sw : Bool) {ptype : PType} {h : HdrFields} {payload : List Byte} {answers : List Bool} {s : State}
    (hp : PassesChecks ptype h payload.length answers s) :
    ∃ rx crc, receiveBytes (Config.delimByte :: escBody sw (hdrBytes ptype h ++ frameRest ptype h payload)) s.begin =
      rxReset .waitDelimiter (classify ptype
        { committed h answers s with
          rxState := rx
          escState := .noesc
          rxHdr := hdrBytes ptype h
          rxLen := h.len
          rxBuf := payload
          rxCrc := crc
          rxHeld := true }) := by
  obtain ⟨rx, crc, e⟩ :=
    feed_frame ptype h payload (frameOpen s.begin) rfl rfl hp.checksum hp.gate hp.sequence hp.len answers hp.pool rfl
  refine ⟨rx, crc, ?_⟩
  rw [receive_hdrBytes _ _ _ _ s.begin hp.isOpen hp.boundary, e]
  have p := prune_receive h.ack
    { s with
      poolAnswers := answers
      expectedRxSeq := if h.reliable then h.seq + 1 else s.expectedRxSeq
      ackPending := s.ackPending || h.reliable
      lastPeerAck := h.ack
      out := [.pool (.acquire (h.len.toNat + Config.hdrLen) s.params.headerReserve)] }
    .waitHeader .noesc [] s.rxBuf s.rxCrc s.rxLen s.rxHeld
  simp only [committed, commits, frameOpen, State.begin] at p ⊢
  rw [p]

/-- The header of a message's frame (R77). -/
def messageHeader (payload : List Byte) : HdrFields where
  seq := 0
  ack := 0
  crcPresent := false
  reliable := false
  len := BitVec.ofNat 12 payload.length
  checksum := hdrChecksum (hdrByte0 0 0 false false) (hdrByte1 15 (BitVec.ofNat 12 payload.length))
    (hdrByte2 (BitVec.ofNat 12 payload.length))

theorem messageWire_eq (payload : List Byte) :
    messageWire payload =
      (Config.delimByte :: escBody false (hdrBytes 15 (messageHeader payload) ++ frameRest 15 (messageHeader payload) payload))
        ++ [Config.delimByte] := by
  simp [messageWire, encodeFrame, frameBody, frameRest, messageHeader, hdrBuild, hdrBytes, ptLinkControl]

theorem messageArrives_passes {payload : List Byte} {answers : List Bool} {s : State}
    (h : MessageArrives payload.length answers s) : PassesChecks 15 (messageHeader payload) payload.length answers s where
  inv := h.inv
  isOpen := h.isOpen
  gate := fun hn => absurd rfl hn
  boundary := h.boundary
  checksum := rfl
  sequence := fun hn => absurd hn (by simp [messageHeader])
  len := by
    have : payload.length < 4096 := Nat.lt_succ_of_le h.fits
    simp [messageHeader, Nat.mod_eq_of_lt this]
  pool := h.pool

/-- The pool's further answers play no part in committing a message. -/
theorem messageCommitted_answers (n : Nat) (answers answers' : List Bool) (s : State) :
    messageCommitted n answers s = { messageCommitted n answers' s with poolAnswers := answers } := by
  unfold messageCommitted prune
  dsimp only
  cases h : ackIndex s.nextTxSeq 0 s.unackQ.length with
  | none => by_cases hq : s.unackQ = [] <;> simp [hq, State.emit, stopRtxTimer]
  | some j =>
    simp only [releaseAll_eq]
    split <;> simp [State.emit, stopRtxTimer]

/-- What `messageCommitted` changes, in the shape of one record. -/
theorem messageCommitted_shape (n : Nat) (answers : List Bool) (s : State) :
    ∃ k armed events, messageCommitted n answers s =
      { s with
        poolAnswers := answers
        lastPeerAck := 0
        unackQ := s.unackQ.drop k
        rtxTimerArmed := armed
        out := .pool (.acquire (n + Config.hdrLen) s.params.headerReserve) :: events } := by
  obtain ⟨k, armed, events, e, -⟩ := prune_shape 0
    { s with
      poolAnswers := answers
      lastPeerAck := 0
      out := [.pool (.acquire (n + Config.hdrLen) s.params.headerReserve)] }
  exact ⟨k, armed, events, e⟩

/-- A link-control message, arriving between two frames in any open state: its frame is committed, the message is received by
the link controller, its buffer is freed, and its closing delimiter opens the next frame. -/
theorem receiveMessage_eq {payload : List Byte} {answers : List Bool} {s : State}
    (h : MessageArrives payload.length answers s) :
    receiveMessage payload s = .next
      { lcRx payload (messageCommitted payload.length answers s) with
        rxState := .waitFrameStart
        out := (lcRx payload (messageCommitted payload.length answers s)).out ++ [.pool (.release payload)] } := by
  have hp := messageArrives_passes h
  obtain ⟨rx, crc, e⟩ := receive_passing false hp
  have hc : committed (messageHeader payload) answers s = messageCommitted payload.length answers s := by
    unfold committed commits messageCommitted
    rw [hp.len]
    simp [messageHeader]
  have ha := h.inv.assembler.1 h.boundary
  rw [receiveMessage, receiveStep, messageWire_eq, receiveBytes_append, e, hc]
  have hcl : ∀ t : State, classify 15 t = freeRxBuffer (lcRx t.rxBuf t) := fun t => by
    simp [classify, ptAck, ptLinkControl]
  rw [hcl, lcRx_receive]
  simp only [freeRxBuffer_eq, rxReset_eq, receiveBytes]
  have hi : (lcRx payload (messageCommitted payload.length answers s)).linkState ≠ .idle :=
    lcRx_open _ _ (by rw [messageCommitted, prune_linkState]; exact h.isOpen)
  obtain ⟨link, sync, rtx, c, q, rest, draws, events, e', -, -⟩ :=
    lcRx_effect payload (messageCommitted payload.length answers s)
  obtain ⟨k, armed, events', e'', -⟩ := prune_shape 0
    { s with
      poolAnswers := answers
      lastPeerAck := 0
      out := [.pool (.acquire (payload.length + Config.hdrLen) s.params.headerReserve)] }
  have hd : ∀ t : State, t.linkState ≠ .idle → t.rxState = .waitDelimiter →
      receiveByte Config.delimByte t = { t with rxState := .waitFrameStart } := fun t a b => receive_delim t a (.inl b)
  rw [hd _ (by exact hi) rfl]
  rw [e'] at hi ⊢
  rw [messageCommitted, e''] at hi ⊢
  simp [heldEvents, ha]

end Sys2Proof.Machine
end

