-- ==== Sys2Proof/Laws/Output.lean ====
section
/-! SUPPORT. The output list is only written: what an operation emits and does never depends on what was emitted before it. So a
run of RX_BYTE operations in one step is the run of them in several steps, outputs joined. -/

namespace Sys2Proof.Machine

/-- `f` only appends to the output, and reads nothing of it. -/
def OutputOnly (f : State → State) : Prop :=
  ∀ (s : State) (o : List Event), f { s with out := o ++ s.out } = { f s with out := o ++ (f s).out }

theorem outputOnly_comp {f g : State → State} (hf : OutputOnly f) (hg : OutputOnly g) : OutputOnly fun s => g (f s) :=
  fun s o => by simp only [hf s o, hg (f s) o]

theorem outputOnly_emit (e : Event) : OutputOnly (·.emit e) := fun s o => by simp [State.emit]

theorem outputOnly_dropFrame (code : ErrCode) (target : RxState) : OutputOnly (dropFrame code target) := fun s o => by
  simp [dropFrame_eq, heldEvents]

theorem outputOnly_prune (a : SeqNum) : OutputOnly (prune a) := fun s o => by
  simp only [prune]
  cases h : ackIndex s.nextTxSeq a s.unackQ.length with
  | none => by_cases hq : s.unackQ = [] <;> simp [hq, State.emit, stopRtxTimer]
  | some j =>
    simp only [releaseAll_eq]
    split <;> simp [State.emit, stopRtxTimer]

theorem outputOnly_lcSend (m : LcMsg) : OutputOnly (lcSend m) := fun s o => by
  cases h : s.poolAnswers with
  | nil => cases h' : Config.poolAnswer s.poolDraws <;> simp [lcSend, acquire, State.emit, h, h']
  | cons b rest => cases b <;> simp [lcSend, acquire, State.emit, h]

theorem outputOnly_lcRx (payload : List Byte) : OutputOnly (lcRx payload) := fun s o => by
  unfold lcRx
  split
  · exact outputOnly_lcSend _ s o
  · unfold rxSyncRsp
    dsimp only
    split
    · have := outputOnly_lcSend .config { startRtxTimer (stopSyncTimer s) with linkState := .configuring } o
      rw [← this]
      simp [startRtxTimer, stopSyncTimer, State.emit]
    · rfl
  · unfold rxConfig
    dsimp only
    split
    · exact outputOnly_comp (outputOnly_lcSend _) (outputOnly_lcSend _) s o
    · exact outputOnly_lcSend _ s o
    all_goals rfl
  · unfold rxConfigRsp
    dsimp only
    split <;> simp [State.emit]
  · simp [rxUnknown, State.emit]

theorem outputOnly_deliver : OutputOnly deliver := fun s o => by
  have hc : OutputOnly (commitFrame (hdrFields s.rxHdr)) := fun s' o => by
    unfold commitFrame
    dsimp only
    generalize hdrFields s.rxHdr = h
    split
    · exact outputOnly_prune _ { s' with expectedRxSeq := h.seq + 1, ackPending := true, lastPeerAck := h.ack } o
    · exact outputOnly_prune _ { s' with lastPeerAck := h.ack } o
  have hk : OutputOnly (classify (hdrType s.rxHdr)) := fun s' o => by
    unfold classify
    split
    · simp [freeRxBuffer_eq, heldEvents]
    · split
      · have := outputOnly_lcRx s'.rxBuf s' o
        simp only [freeRxBuffer_eq, this, heldEvents, List.append_assoc]
      · simp [deliverUp, State.emit]
  have := outputOnly_comp hc hk s o
  dsimp only at this
  unfold deliver
  dsimp only
  rw [this]
  simp [rxReset_eq, heldEvents]

theorem outputOnly_payloadComplete : OutputOnly payloadComplete := fun s o => by
  unfold payloadComplete
  dsimp only
  split
  · rfl
  · exact outputOnly_deliver s o

theorem outputOnly_headerComplete : OutputOnly headerComplete := fun s o => by
  unfold headerComplete
  dsimp only
  split
  · exact outputOnly_dropFrame _ _ s o
  split
  · exact outputOnly_dropFrame _ _ s o
  split
  · exact outputOnly_dropFrame _ _ s o
  have acc : ∀ len, OutputOnly (headerAccepted len) := fun len s o => by
    unfold headerAccepted
    dsimp only
    split
    · exact outputOnly_payloadComplete { s with rxLen := len, rxHeld := true, rxBuf := [] } o
    · rfl
  have fin : ∀ (b : Bool) (len : PLen) (t : State),
      (match (b, ({ t with out := o ++ t.out } : State)) with
        | (false, s) => dropFrame .allocationFailure .waitDelimiter s
        | (true, s) => headerAccepted len s) =
      { (match (b, t) with
        | (false, s) => dropFrame .allocationFailure .waitDelimiter s
        | (true, s) => headerAccepted len s) with
        out := o ++ (match (b, t) with
        | (false, s) => dropFrame .allocationFailure .waitDelimiter s
        | (true, s) => headerAccepted len s).out } := by
    intro b len t
    cases b
    · exact outputOnly_dropFrame _ _ t o
    · exact acc len t o
  cases h : s.poolAnswers with
  | nil =>
    simp only [acquire, State.emit, h, List.append_assoc]
    exact fin _ _ { s with out := s.out ++ [.pool (.acquire _ s.params.headerReserve)], poolDraws := s.poolDraws + 1, poolAnswers := [] }
  | cons b rest =>
    simp only [acquire, State.emit, h, List.append_assoc]
    exact fin _ _ { s with out := s.out ++ [.pool (.acquire _ s.params.headerReserve)], poolAnswers := rest }

theorem outputOnly_bodyByte (v : Byte) : OutputOnly (bodyByte v) := fun s o => by
  unfold bodyByte
  dsimp only
  split
  · unfold headerByte
    dsimp only
    split
    · exact outputOnly_headerComplete { s with rxHdr := s.rxHdr ++ [v] } o
    · rfl
  · unfold payloadByte
    dsimp only
    split
    · exact outputOnly_payloadComplete { s with rxBuf := s.rxBuf ++ [v] } o
    · rfl
  · unfold crcTrailerByte
    dsimp only
    split
    · unfold crcComplete
      dsimp only
      split
      · exact outputOnly_dropFrame _ _ { s with rxCrc := s.rxCrc ++ [v] } o
      · exact outputOnly_deliver { s with rxCrc := s.rxCrc ++ [v] } o
    · rfl
  all_goals rfl

theorem outputOnly_frameByte (b : Byte) : OutputOnly (frameByte b) := fun s o => by
  unfold frameByte
  dsimp only
  split
  · rfl
  · exact outputOnly_bodyByte _ { s with escState := (decodeByte s.escState b).2 } o
  all_goals exact outputOnly_dropFrame _ _ { s with escState := (decodeByte s.escState b).2 } o

/-- RX_BYTE neither reads the output of earlier operations nor takes any of it back. -/
theorem outputOnly_receiveByte (b : Byte) : OutputOnly (receiveByte b) := fun s o => by
  unfold receiveByte
  dsimp only
  split
  · rfl
  split
  · split <;> rfl
  · split
    · rfl
    · exact outputOnly_frameByte b { s with rxState := .waitHeader, rxHdr := [], escState := .noesc } o
  all_goals exact outputOnly_frameByte b s o

theorem outputOnly_receiveBytes (bs : List Byte) : OutputOnly (receiveBytes bs) := by
  induction bs with
  | nil => intro s o; rfl
  | cons b bs ih =>
    exact fun s o => outputOnly_comp (f := receiveByte b) (g := receiveBytes bs) (outputOnly_receiveByte b) ih s o

/-- Bytes received in separate operations are the bytes received in one (R41). -/
theorem runOps_rxByte (bs : List Byte) (s : State) : runOps (bs.map .rxByte) s = .next (receiveBytes bs s.begin) := by
  induction bs generalizing s with
  | nil => rfl
  | cons b bs ih =>
    have h := outputOnly_receiveBytes bs (receiveByte b s.begin).begin (receiveByte b s.begin).out
    simp only [List.map_cons, runOps, exec, execRxByte, ih, receiveBytes]
    rw [← h]
    simp [State.begin]

end Sys2Proof.Machine
end

