-- ==== Sys2Proof/Laws/PerInstr.lean ====
section
/-! SUPPORT. Families of statements made once for each instruction. -/

namespace Sys2Proof.Laws

open Sys2Proof Sys2Proof.Machine

/-- A row of spec/opcode_table.json: its format, and its mask and match, byte by byte, first wire byte first (R79); a
command's 4-bit code in one byte. -/
structure Row where
  format : Format
  mask : List Byte
  pattern : List Byte
  deriving DecidableEq, Repr

/-- The rows of spec/opcode_table.json. -/
def rowOf : Instr → Row
  | .delim => ⟨.byte1, [0xFF], [0xC0]⟩
  | .escDelim => ⟨.byte2, [0xFF, 0xFF], [0xDB, 0xDC]⟩
  | .escEsc => ⟨.byte2, [0xFF, 0xFF], [0xDB, 0xDD]⟩
  | .escXon => ⟨.byte2, [0xFF, 0xFF], [0xDB, 0xDE]⟩
  | .escXoff => ⟨.byte2, [0xFF, 0xFF], [0xDB, 0xDF]⟩
  | .escInvalid _ => ⟨.byte2, [0xFF, 0x00], [0xDB, 0x00]⟩
  | .escThenDelim => ⟨.byte2, [0xFF, 0xFF], [0xDB, 0xC0]⟩
  | .literal _ => ⟨.byte1, [0x00], [0x00]⟩
  | .hdrAck _ _ => ⟨.hdr, [0x00, 0x0F, 0x00, 0x00], [0x00, 0x00, 0x00, 0x00]⟩
  | .hdrCommand _ _ => ⟨.hdr, [0x00, 0x0F, 0x00, 0x00], [0x00, 0x01, 0x00, 0x00]⟩
  | .hdrAclData _ _ => ⟨.hdr, [0x00, 0x0F, 0x00, 0x00], [0x00, 0x02, 0x00, 0x00]⟩
  | .hdrScoData _ _ => ⟨.hdr, [0x00, 0x0F, 0x00, 0x00], [0x00, 0x03, 0x00, 0x00]⟩
  | .hdrEvent _ _ => ⟨.hdr, [0x00, 0x0F, 0x00, 0x00], [0x00, 0x04, 0x00, 0x00]⟩
  | .hdrType5 _ _ => ⟨.hdr, [0x00, 0x0F, 0x00, 0x00], [0x00, 0x05, 0x00, 0x00]⟩
  | .hdrType6 _ _ => ⟨.hdr, [0x00, 0x0F, 0x00, 0x00], [0x00, 0x06, 0x00, 0x00]⟩
  | .hdrType7 _ _ => ⟨.hdr, [0x00, 0x0F, 0x00, 0x00], [0x00, 0x07, 0x00, 0x00]⟩
  | .hdrType8 _ _ => ⟨.hdr, [0x00, 0x0F, 0x00, 0x00], [0x00, 0x08, 0x00, 0x00]⟩
  | .hdrType9 _ _ => ⟨.hdr, [0x00, 0x0F, 0x00, 0x00], [0x00, 0x09, 0x00, 0x00]⟩
  | .hdrType10 _ _ => ⟨.hdr, [0x00, 0x0F, 0x00, 0x00], [0x00, 0x0A, 0x00, 0x00]⟩
  | .hdrType11 _ _ => ⟨.hdr, [0x00, 0x0F, 0x00, 0x00], [0x00, 0x0B, 0x00, 0x00]⟩
  | .hdrType12 _ _ => ⟨.hdr, [0x00, 0x0F, 0x00, 0x00], [0x00, 0x0C, 0x00, 0x00]⟩
  | .hdrType13 _ _ => ⟨.hdr, [0x00, 0x0F, 0x00, 0x00], [0x00, 0x0D, 0x00, 0x00]⟩
  | .hdrType14 _ _ => ⟨.hdr, [0x00, 0x0F, 0x00, 0x00], [0x00, 0x0E, 0x00, 0x00]⟩
  | .hdrLinkControl _ _ => ⟨.hdr, [0x00, 0x0F, 0x00, 0x00], [0x00, 0x0F, 0x00, 0x00]⟩
  | .lcSync _ => ⟨.lc, [0xFF, 0xFF], [0x01, 0x7E]⟩
  | .lcSyncRsp _ => ⟨.lc, [0xFF, 0xFF], [0x02, 0x7D]⟩
  | .lcConfig _ => ⟨.lc, [0xFF, 0xFF], [0x03, 0xFC]⟩
  | .lcConfigRsp _ => ⟨.lc, [0xFF, 0xFF], [0x04, 0x7B]⟩
  | .lcUnknown _ => ⟨.lc, [0x00, 0x00], [0x00, 0x00]⟩
  | .openLink => ⟨.cmd, [0x0F], [0x00]⟩
  | .closeLink => ⟨.cmd, [0x0F], [0x01]⟩
  | .submit _ _ _ _ _ => ⟨.cmd, [0x0F], [0x02]⟩
  | .release _ => ⟨.cmd, [0x0F], [0x03]⟩
  | .rxByte _ => ⟨.cmd, [0x0F], [0x04]⟩
  | .txPull => ⟨.cmd, [0x0F], [0x05]⟩
  | .rtxExpire => ⟨.cmd, [0x0F], [0x06]⟩
  | .syncExpire => ⟨.cmd, [0x0F], [0x07]⟩

/-- Every code byte under its mask is the pattern's byte. -/
def underMask (code mask pattern : List Byte) : Bool :=
  (code.zip (mask.zip pattern)).all fun (c, m, p) => c &&& m == p

/-- The encoder writes a code of the instruction's own row: its format, its code bytes under the row's mask equal to the row's
match, and as many of them as the row has (an UNKNOWN message may have fewer, R71). -/
def EncodedWord.Statement (i : Instr) : Prop :=
  i.wf = true →
    (encode i).format = (rowOf i).format ∧
    underMask (encode i).code (rowOf i).mask (rowOf i).pattern = true ∧
    ((encode i).code.length = (rowOf i).mask.length ∨
      (encode i).format = .lc ∧ (encode i).code.length < 2 ∧ (encode i).payload = [])

/-- A header of packet type `ptype` under the mask of its row. -/
theorem header_underMask (ptype : PType) (h : HdrFields) :
    underMask (hdrBytes ptype h) [0x00, 0x0F, 0x00, 0x00] [0x00, ptype.setWidth 8, 0x00, 0x00] = true := by
  have key : hdrByte1 ptype h.len &&& 0x0F = ptype.setWidth 8 := by
    unfold hdrByte1
    generalize h.len.setWidth 4 = n
    revert ptype n
    decide
  simp only [underMask, hdrBytes, List.zip_cons_cons, List.all_cons, key]
  simp

theorem EncodedWord.delim : EncodedWord.Statement .delim :=
  fun _ => ⟨rfl, rfl, .inl rfl⟩

theorem EncodedWord.escDelim : EncodedWord.Statement .escDelim :=
  fun _ => ⟨rfl, rfl, .inl rfl⟩

theorem EncodedWord.escEsc : EncodedWord.Statement .escEsc :=
  fun _ => ⟨rfl, rfl, .inl rfl⟩

theorem EncodedWord.escXon : EncodedWord.Statement .escXon :=
  fun _ => ⟨rfl, rfl, .inl rfl⟩

theorem EncodedWord.escXoff : EncodedWord.Statement .escXoff :=
  fun _ => ⟨rfl, rfl, .inl rfl⟩

theorem EncodedWord.escInvalid (x : Byte) : EncodedWord.Statement (.escInvalid x) :=
  fun _ => ⟨rfl, by simp [underMask, encode, encodeBytes, rowOf], .inl rfl⟩

theorem EncodedWord.escThenDelim : EncodedWord.Statement .escThenDelim :=
  fun _ => ⟨rfl, rfl, .inl rfl⟩

theorem EncodedWord.literal (b : Byte) : EncodedWord.Statement (.literal b) :=
  fun _ => ⟨rfl, by simp [underMask, encode, encodeBytes, rowOf], .inl rfl⟩

theorem EncodedWord.hdrAck (h : HdrFields) (rest : List Byte) : EncodedWord.Statement (.hdrAck h rest) :=
  fun _ => ⟨rfl, header_underMask 0 h, .inl rfl⟩

theorem EncodedWord.hdrCommand (h : HdrFields) (rest : List Byte) : EncodedWord.Statement (.hdrCommand h rest) :=
  fun _ => ⟨rfl, header_underMask 1 h, .inl rfl⟩

theorem EncodedWord.hdrAclData (h : HdrFields) (rest : List Byte) : EncodedWord.Statement (.hdrAclData h rest) :=
  fun _ => ⟨rfl, header_underMask 2 h, .inl rfl⟩

theorem EncodedWord.hdrScoData (h : HdrFields) (rest : List Byte) : EncodedWord.Statement (.hdrScoData h rest) :=
  fun _ => ⟨rfl, header_underMask 3 h, .inl rfl⟩

theorem EncodedWord.hdrEvent (h : HdrFields) (rest : List Byte) : EncodedWord.Statement (.hdrEvent h rest) :=
  fun _ => ⟨rfl, header_underMask 4 h, .inl rfl⟩

theorem EncodedWord.hdrType5 (h : HdrFields) (rest : List Byte) : EncodedWord.Statement (.hdrType5 h rest) :=
  fun _ => ⟨rfl, header_underMask 5 h, .inl rfl⟩

theorem EncodedWord.hdrType6 (h : HdrFields) (rest : List Byte) : EncodedWord.Statement (.hdrType6 h rest) :=
  fun _ => ⟨rfl, header_underMask 6 h, .inl rfl⟩

theorem EncodedWord.hdrType7 (h : HdrFields) (rest : List Byte) : EncodedWord.Statement (.hdrType7 h rest) :=
  fun _ => ⟨rfl, header_underMask 7 h, .inl rfl⟩

theorem EncodedWord.hdrType8 (h : HdrFields) (rest : List Byte) : EncodedWord.Statement (.hdrType8 h rest) :=
  fun _ => ⟨rfl, header_underMask 8 h, .inl rfl⟩

theorem EncodedWord.hdrType9 (h : HdrFields) (rest : List Byte) : EncodedWord.Statement (.hdrType9 h rest) :=
  fun _ => ⟨rfl, header_underMask 9 h, .inl rfl⟩

theorem EncodedWord.hdrType10 (h : HdrFields) (rest : List Byte) : EncodedWord.Statement (.hdrType10 h rest) :=
  fun _ => ⟨rfl, header_underMask 10 h, .inl rfl⟩

theorem EncodedWord.hdrType11 (h : HdrFields) (rest : List Byte) : EncodedWord.Statement (.hdrType11 h rest) :=
  fun _ => ⟨rfl, header_underMask 11 h, .inl rfl⟩

theorem EncodedWord.hdrType12 (h : HdrFields) (rest : List Byte) : EncodedWord.Statement (.hdrType12 h rest) :=
  fun _ => ⟨rfl, header_underMask 12 h, .inl rfl⟩

theorem EncodedWord.hdrType13 (h : HdrFields) (rest : List Byte) : EncodedWord.Statement (.hdrType13 h rest) :=
  fun _ => ⟨rfl, header_underMask 13 h, .inl rfl⟩

theorem EncodedWord.hdrType14 (h : HdrFields) (rest : List Byte) : EncodedWord.Statement (.hdrType14 h rest) :=
  fun _ => ⟨rfl, header_underMask 14 h, .inl rfl⟩

theorem EncodedWord.hdrLinkControl (h : HdrFields) (rest : List Byte) : EncodedWord.Statement (.hdrLinkControl h rest) :=
  fun _ => ⟨rfl, header_underMask 15 h, .inl rfl⟩

theorem EncodedWord.lcSync (params : List Byte) : EncodedWord.Statement (.lcSync params) :=
  fun _ => ⟨rfl, rfl, .inl rfl⟩

theorem EncodedWord.lcSyncRsp (params : List Byte) : EncodedWord.Statement (.lcSyncRsp params) :=
  fun _ => ⟨rfl, rfl, .inl rfl⟩

theorem EncodedWord.lcConfig (params : List Byte) : EncodedWord.Statement (.lcConfig params) :=
  fun _ => ⟨rfl, rfl, .inl rfl⟩

theorem EncodedWord.lcConfigRsp (params : List Byte) : EncodedWord.Statement (.lcConfigRsp params) :=
  fun _ => ⟨rfl, rfl, .inl rfl⟩

theorem EncodedWord.lcUnknown (payload : List Byte) : EncodedWord.Statement (.lcUnknown payload) := by
  intro _
  rcases payload with _ | ⟨a, _ | ⟨b, rest⟩⟩
  · exact ⟨rfl, rfl, .inr ⟨rfl, by decide, rfl⟩⟩
  · exact ⟨rfl, by simp [underMask, encode, encodeMessage, rowOf], .inr ⟨rfl, by simp [encode, encodeMessage], rfl⟩⟩
  · exact ⟨rfl, by simp [underMask, encode, encodeMessage, rowOf], .inl rfl⟩

theorem EncodedWord.openLink : EncodedWord.Statement .openLink :=
  fun _ => ⟨rfl, rfl, .inl rfl⟩

theorem EncodedWord.closeLink : EncodedWord.Statement .closeLink :=
  fun _ => ⟨rfl, rfl, .inl rfl⟩

theorem EncodedWord.submit (ptype : PType) (reliable : Bool) (payload : List Byte) (owned : Bool) (tag : Nat) : EncodedWord.Statement (.submit ptype reliable payload owned tag) :=
  fun _ => ⟨rfl, rfl, .inl rfl⟩

theorem EncodedWord.release (id : Nat) : EncodedWord.Statement (.release id) :=
  fun _ => ⟨rfl, rfl, .inl rfl⟩

theorem EncodedWord.rxByte (b : Byte) : EncodedWord.Statement (.rxByte b) :=
  fun _ => ⟨rfl, rfl, .inl rfl⟩

theorem EncodedWord.txPull : EncodedWord.Statement .txPull :=
  fun _ => ⟨rfl, rfl, .inl rfl⟩

theorem EncodedWord.rtxExpire : EncodedWord.Statement .rtxExpire :=
  fun _ => ⟨rfl, rfl, .inl rfl⟩

theorem EncodedWord.syncExpire : EncodedWord.Statement .syncExpire :=
  fun _ => ⟨rfl, rfl, .inl rfl⟩

end Sys2Proof.Laws
end

