-- ==== Sys2Proof/Tests/Slice0.lean ====
section
/-! SUPPORT. Tests. Expected values are the spec's own: the words are written out from 30_encoding (R61, R70, R71, R74), the
single steps are vectors of 95_test_vectors.md, named in each comment. The last part shows that the hypotheses of the obligations can
be met. -/

namespace Sys2Proof.Tests

open Sys2Proof Sys2Proof.Machine

/-! ### WellFormed refuses -/

theorem test_wf_escInvalid_code : (Instr.escInvalid 0xDC).wf = false := by decide
theorem test_wf_escInvalid_delim : (Instr.escInvalid 0xC0).wf = false := by decide
theorem test_wf_literal_delim : (Instr.literal 0xC0).wf = false := by decide
theorem test_wf_literal_escape : (Instr.literal 0xDB).wf = false := by decide
theorem test_wf_sync_long : (Instr.lcSync (List.replicate 4094 0)).wf = false := by
  rw [Instr.wf, List.length_replicate]
  decide
theorem test_wf_syncRsp_long : (Instr.lcSyncRsp (List.replicate 4094 0)).wf = false := by
  rw [Instr.wf, List.length_replicate]
  decide
theorem test_wf_config_long : (Instr.lcConfig (List.replicate 4094 0)).wf = false := by
  rw [Instr.wf, List.length_replicate]
  decide
theorem test_wf_configRsp_long : (Instr.lcConfigRsp (List.replicate 4094 0)).wf = false := by
  rw [Instr.wf, List.length_replicate]
  decide
theorem test_wf_unknown_known : (Instr.lcUnknown [0x01, 0x7E]).wf = false := by decide
theorem test_wf_unknown_long : (Instr.lcUnknown (List.replicate 4096 0)).wf = false := by
  rw [Instr.wf, List.length_replicate, show decide (4096 ≤ Config.maxPayload) = false from rfl, Bool.and_false]

/-! ### Decoding words written out from the spec -/

/-- The fields of header H3, `A2 32 12 19`, with its checksum byte free: for the other types only the type nibble and the checksum
differ. -/
def h3 (checksum : Byte) : HdrFields :=
  { seq := 2, ack := 4, crcPresent := false, reliable := true, len := 0x123, checksum := checksum }

theorem test_decode_delim : decode ⟨.byte1, [0b11000000], [], []⟩ = .ok .delim := by decide
theorem test_decode_escDelim : decode ⟨.byte2, [0b11011011, 0b11011100], [], []⟩ = .ok .escDelim := by decide
theorem test_decode_escEsc : decode ⟨.byte2, [0b11011011, 0b11011101], [], []⟩ = .ok .escEsc := by decide
theorem test_decode_escXon : decode ⟨.byte2, [0b11011011, 0b11011110], [], []⟩ = .ok .escXon := by decide
theorem test_decode_escXoff : decode ⟨.byte2, [0b11011011, 0b11011111], [], []⟩ = .ok .escXoff := by decide
theorem test_decode_escInvalid : decode ⟨.byte2, [0b11011011, 0b11011011], [], []⟩ = .ok (.escInvalid 0xDB) := by decide
theorem test_decode_escThenDelim : decode ⟨.byte2, [0b11011011, 0b11000000], [], []⟩ = .ok .escThenDelim := by decide
theorem test_decode_literal : decode ⟨.byte1, [0b11011100], [], []⟩ = .ok (.literal 0xDC) := by decide
theorem test_decode_hdrAck : decode ⟨.hdr, [0b10100010, 0b00110000, 0b00010010, 0x1B], [], [0x55]⟩ =
    .ok (.hdrAck (h3 0x1B) [0x55]) := by decide
theorem test_decode_hdrCommand : decode ⟨.hdr, [0b10100010, 0b00110001, 0b00010010, 0x1A], [], [0x55]⟩ =
    .ok (.hdrCommand (h3 0x1A) [0x55]) := by decide
theorem test_decode_hdrAclData : decode ⟨.hdr, [0b10100010, 0b00110010, 0b00010010, 0x19], [], [0x55]⟩ =
    .ok (.hdrAclData (h3 0x19) [0x55]) := by decide
theorem test_decode_hdrScoData : decode ⟨.hdr, [0b10100010, 0b00110011, 0b00010010, 0x18], [], [0x55]⟩ =
    .ok (.hdrScoData (h3 0x18) [0x55]) := by decide
theorem test_decode_hdrEvent : decode ⟨.hdr, [0b10100010, 0b00110100, 0b00010010, 0x17], [], [0x55]⟩ =
    .ok (.hdrEvent (h3 0x17) [0x55]) := by decide
theorem test_decode_hdrType5 : decode ⟨.hdr, [0b10100010, 0b00110101, 0b00010010, 0x16], [], [0x55]⟩ =
    .ok (.hdrType5 (h3 0x16) [0x55]) := by decide
theorem test_decode_hdrType6 : decode ⟨.hdr, [0b10100010, 0b00110110, 0b00010010, 0x15], [], [0x55]⟩ =
    .ok (.hdrType6 (h3 0x15) [0x55]) := by decide
theorem test_decode_hdrType7 : decode ⟨.hdr, [0b10100010, 0b00110111, 0b00010010, 0x14], [], [0x55]⟩ =
    .ok (.hdrType7 (h3 0x14) [0x55]) := by decide
theorem test_decode_hdrType8 : decode ⟨.hdr, [0b10100010, 0b00111000, 0b00010010, 0x13], [], [0x55]⟩ =
    .ok (.hdrType8 (h3 0x13) [0x55]) := by decide
theorem test_decode_hdrType9 : decode ⟨.hdr, [0b10100010, 0b00111001, 0b00010010, 0x12], [], [0x55]⟩ =
    .ok (.hdrType9 (h3 0x12) [0x55]) := by decide
theorem test_decode_hdrType10 : decode ⟨.hdr, [0b10100010, 0b00111010, 0b00010010, 0x11], [], [0x55]⟩ =
    .ok (.hdrType10 (h3 0x11) [0x55]) := by decide
theorem test_decode_hdrType11 : decode ⟨.hdr, [0b10100010, 0b00111011, 0b00010010, 0x10], [], [0x55]⟩ =
    .ok (.hdrType11 (h3 0x10) [0x55]) := by decide
theorem test_decode_hdrType12 : decode ⟨.hdr, [0b10100010, 0b00111100, 0b00010010, 0x0F], [], [0x55]⟩ =
    .ok (.hdrType12 (h3 0x0F) [0x55]) := by decide
theorem test_decode_hdrType13 : decode ⟨.hdr, [0b10100010, 0b00111101, 0b00010010, 0x0E], [], [0x55]⟩ =
    .ok (.hdrType13 (h3 0x0E) [0x55]) := by decide
theorem test_decode_hdrType14 : decode ⟨.hdr, [0b10100010, 0b00111110, 0b00010010, 0x0D], [], [0x55]⟩ =
    .ok (.hdrType14 (h3 0x0D) [0x55]) := by decide
theorem test_decode_hdrLinkControl : decode ⟨.hdr, [0b10100010, 0b00111111, 0b00010010, 0x0C], [], [0x55]⟩ =
    .ok (.hdrLinkControl (h3 0x0C) [0x55]) := by decide
theorem test_decode_lcSync : decode ⟨.lc, [0b00000001, 0b01111110], [], []⟩ = .ok (.lcSync []) := by decide
theorem test_decode_lcSyncRsp : decode ⟨.lc, [0b00000010, 0b01111101], [], []⟩ = .ok (.lcSyncRsp []) := by decide
theorem test_decode_lcConfig : decode ⟨.lc, [0b00000011, 0b11111100], [], [0x14]⟩ = .ok (.lcConfig [0x14]) := by decide
theorem test_decode_lcConfigRsp : decode ⟨.lc, [0b00000100, 0b01111011], [], [0x10]⟩ = .ok (.lcConfigRsp [0x10]) := by decide
theorem test_decode_lcUnknown : decode ⟨.lc, [0x05, 0xFA], [], []⟩ = .ok (.lcUnknown [0x05, 0xFA]) := by decide
theorem test_decode_lcUnknown_short : decode ⟨.lc, [0x01], [], []⟩ = .ok (.lcUnknown [0x01]) := by decide
theorem test_decode_openLink : decode ⟨.cmd, [0b0000], [], []⟩ = .ok .openLink := by decide
theorem test_decode_closeLink : decode ⟨.cmd, [0b0001], [], []⟩ = .ok .closeLink := by decide
theorem test_decode_submit : decode ⟨.cmd, [0b0010], [2, 1, 0, 77], [0xC0]⟩ = .ok (.submit 2 true [0xC0] false 77) := by
  decide
theorem test_decode_release : decode ⟨.cmd, [0b0011], [7], []⟩ = .ok (.release 7) := by decide
theorem test_decode_rxByte : decode ⟨.cmd, [0b0100], [0xDB], []⟩ = .ok (.rxByte 0xDB) := by decide
theorem test_decode_txPull : decode ⟨.cmd, [0b0101], [], []⟩ = .ok .txPull := by decide
theorem test_decode_rtxExpire : decode ⟨.cmd, [0b0110], [], []⟩ = .ok .rtxExpire := by decide
theorem test_decode_syncExpire : decode ⟨.cmd, [0b0111], [], []⟩ = .ok .syncExpire := by decide
theorem test_decode_unassigned : decode ⟨.cmd, [0b1000], [], []⟩ = .error .unassignedCommand := by decide
theorem test_decode_wide_ptype : decode ⟨.cmd, [0b0010], [16, 1, 0, 0], []⟩ = .error .operandTooWide := by decide
theorem test_decode_lone_escape : decode ⟨.byte1, [0xDB], [], []⟩ = .error .loneEscape := by decide

/-! ### Small states -/

/-- "ACTIVE, CRC off" of the vectors, with the pool granting every buffer. -/
def active : State := { State.reset with linkState := .active, rxState := .waitFrameStart, poolAnswers := [true, true, true] }

/-- SYNCING, between frames. -/
def syncing : State :=
  { State.reset with
    linkState := .syncing, syncTimerArmed := true, rxState := .waitFrameStart, poolAnswers := [true, true, true, true] }

/-- CONFIGURING, between frames. -/
def configuring : State :=
  { State.reset with
    linkState := .configuring, rtxTimerArmed := true, rxState := .waitFrameStart, poolAnswers := [true, true, true] }

/-- A reliable entry with one payload byte. -/
def entry (v : Byte) (seq : SeqNum) : TxEntry :=
  { ptype := 1, reliable := true, payload := [v], callerOwned := false, tag := some v.toNat, seq := seq }

/-- An unreliable caller-owned entry. -/
def loose : TxEntry := { ptype := 3, reliable := false, payload := [0x55, 0x66], callerOwned := true, tag := some 9, seq := 0 }

/-- Four reliable packets in flight, with sequence numbers 2 to 5, and one waiting. -/
def inFlight : State :=
  { active with
    nextTxSeq := 6
    rtxTimerArmed := true
    unackQ := [entry 0xA2 2, entry 0xA3 3, entry 0xA4 4, entry 0xA5 5]
    pendRelQ := [entry 0xA6 0] }

/-- A frame of length 2 with one payload byte received (vector A13). -/
def inPayload : State :=
  { active with
    rxState := .waitPayload, rxHdr := [0x80, 0x24, 0x00, 0x5B], rxLen := 2, rxBuf := [0x0E], rxHeld := true }

/-- A header begun (vector A10). -/
def inHeader : State := { active with rxState := .waitHeader, rxHdr := [0x80, 0x31] }

/-- A frame whose payload is complete and whose trailer is awaited. -/
def inTrailer : State :=
  { active with
    rxState := .waitCrc, rxHdr := [0xC0, 0x14, 0x00, 0x2B], rxLen := 1, rxBuf := [0x0E], rxHeld := true }

/-- Two packets delivered and not yet released. -/
def delivered : State :=
  { active with
    inboundQ := [{ id := 0, ptype := 4, payload := [0x0E] }, { id := 1, ptype := 4, payload := [0x02] }], rxIdNext := 2 }

/-- The state after an instruction, or the state before where it stops. -/
def after (i : Instr) (s : State) : State :=
  match exec i s with
  | .next t => t
  | .fault _ => s
  | .refused _ => s

/-- The events the vectors show: all but the calls on the timer and the pool. -/
def shown (i : Instr) (s : State) : List Event :=
  (after i s).out.filter fun e =>
    match e with
    | .timer _ _ => false
    | .pool _ => false
    | _ => true

/-! ### Single steps -/

/-- A10: a delimiter in the header. -/
theorem test_delim : shown .delim inHeader = [.diag .framingError] ∧ (after .delim inHeader).rxState = .waitFrameStart := by
  decide
/-- A4: the last payload byte is `DB DC`. -/
theorem test_escDelim : shown .escDelim { inPayload with expectedRxSeq := 0 } = [.onPacket 0 4 [0x0E, 0xC0]] := by decide
/-- B9: `DB DD` is the body byte `DB`. -/
theorem test_escEsc : (after .escEsc inHeader).rxHdr = [0x80, 0x31, 0xDB] := by decide
/-- A18: `DB DE` is `11`, with SW_FLOW_ESCAPE = 0. -/
theorem test_escXon : (after .escXon inHeader).rxHdr = [0x80, 0x31, 0x11] := by decide
/-- A18: `DB DF` is `13`. -/
theorem test_escXoff : shown .escXoff inPayload = [.onPacket 0 4 [0x0E, 0x13]] := by decide
/-- A12: `DB DB` in the header. -/
theorem test_escInvalid :
    shown (.escInvalid 0xDB) inHeader = [.diag .framingError] ∧ (after (.escInvalid 0xDB) inHeader).rxState = .waitDelimiter := by
  decide
/-- A11: `DB C0` in the header. -/
theorem test_escThenDelim :
    shown .escThenDelim inHeader = [.diag .framingError] ∧ (after .escThenDelim inHeader).rxState = .waitFrameStart := by
  decide
/-- A26: the second payload byte `00` completes the frame. -/
theorem test_literal : shown (.literal 0x00) inPayload = [.onPacket 0 4 [0x0E, 0x00]] ∧
    (after (.literal 0x00) inPayload).expectedRxSeq = 1 := by decide

/-- Q2 step 6: ACK with `ack=4`, four in flight with numbers 2 to 5 (Q7): 2 and 3 go. -/
theorem test_hdrAck : ((after (.hdrAck { seq := 0, ack := 4, crcPresent := false, reliable := false, len := 0, checksum := 0xDF } [])
    inFlight).unackQ.map (·.seq)) = [4, 5] := by decide
/-- A22: an ACK frame with a payload delivers nothing. -/
theorem test_hdrAck_payload :
    shown (.hdrAck { seq := 0, ack := 0, crcPresent := false, reliable := false, len := 1, checksum := 0xEF } [0x99]) active =
      [] := by decide
/-- F13: a COMMAND with CRC trailer `97 98`. -/
theorem test_hdrCommand_crc :
    shown (.hdrCommand { seq := 0, ack := 0, crcPresent := true, reliable := true, len := 3, checksum := 0x0E }
      [0x03, 0x0C, 0x00, 0x97, 0x98]) active = [.onPacket 0 1 [0x03, 0x0C, 0x00]] := by decide
/-- The same with a wrong trailer (A7). -/
theorem test_hdrCommand_crc_wrong :
    shown (.hdrCommand { seq := 0, ack := 0, crcPresent := true, reliable := true, len := 3, checksum := 0x0E }
      [0x03, 0x0C, 0x00, 0x97, 0x99]) active = [.diag .crcMismatch] := by decide
/-- F14: ACL_DATA with `seq = 3`, accepted where 3 is expected. -/
theorem test_hdrAclData :
    let t := after (.hdrAclData { seq := 3, ack := 5, crcPresent := false, reliable := true, len := 4, checksum := 0x12 }
      [0xC0, 0xDB, 0x11, 0x13]) { active with expectedRxSeq := 3 }
    t.inboundQ = [{ id := 0, ptype := 2, payload := [0xC0, 0xDB, 0x11, 0x13] }] ∧ t.expectedRxSeq = 4 ∧ t.lastPeerAck = 5 := by
  decide
/-- F18 and A23: an unreliable SCO_DATA frame changes no sequence number. -/
theorem test_hdrScoData :
    let t := after (.hdrScoData { seq := 0, ack := 0, crcPresent := false, reliable := false, len := 2, checksum := 0xDC }
      [0x55, 0x66]) active
    t.inboundQ.length = 1 ∧ t.expectedRxSeq = 0 ∧ t.ackPending = false := by decide
/-- A1. -/
theorem test_hdrEvent :
    let i := Instr.hdrEvent { seq := 0, ack := 0, crcPresent := false, reliable := true, len := 1, checksum := 0x6B } [0x0E]
    shown i active = [.onPacket 0 4 [0x0E]] ∧ (after i active).expectedRxSeq = 1 ∧ (after i active).ackPending = true := by decide
/-- A6: `seq` two ahead. -/
theorem test_hdrEvent_ahead :
    shown (.hdrEvent { seq := 2, ack := 0, crcPresent := false, reliable := true, len := 1, checksum := 0x69 } [0x0E]) active =
      [.diag .outOfOrderSequence] := by decide
/-- A21 with type 5: `00 15 00 EA AB` (R61, R64). -/
theorem test_hdrType5 :
    shown (.hdrType5 { seq := 0, ack := 0, crcPresent := false, reliable := false, len := 1, checksum := 0xEA } [0xAB]) active =
      [.onPacket 0 5 [0xAB]] := by decide
/-- A21 with type 6: `00 16 00 E9 AB` (R61, R64). -/
theorem test_hdrType6 :
    shown (.hdrType6 { seq := 0, ack := 0, crcPresent := false, reliable := false, len := 1, checksum := 0xE9 } [0xAB]) active =
      [.onPacket 0 6 [0xAB]] := by decide
/-- A21. -/
theorem test_hdrType7 :
    shown (.hdrType7 { seq := 0, ack := 0, crcPresent := false, reliable := false, len := 1, checksum := 0xE8 } [0xAB]) active =
      [.onPacket 0 7 [0xAB]] := by decide
/-- A21 with type 8: `00 18 00 E7 AB` (R61, R64). -/
theorem test_hdrType8 :
    shown (.hdrType8 { seq := 0, ack := 0, crcPresent := false, reliable := false, len := 1, checksum := 0xE7 } [0xAB]) active =
      [.onPacket 0 8 [0xAB]] := by decide
/-- A21 with type 9: `00 19 00 E6 AB` (R61, R64). -/
theorem test_hdrType9 :
    shown (.hdrType9 { seq := 0, ack := 0, crcPresent := false, reliable := false, len := 1, checksum := 0xE6 } [0xAB]) active =
      [.onPacket 0 9 [0xAB]] := by decide
/-- A21 with type 10: `00 1A 00 E5 AB` (R61, R64). -/
theorem test_hdrType10 :
    shown (.hdrType10 { seq := 0, ack := 0, crcPresent := false, reliable := false, len := 1, checksum := 0xE5 } [0xAB]) active =
      [.onPacket 0 10 [0xAB]] := by decide
/-- A21 with type 11: `00 1B 00 E4 AB` (R61, R64). -/
theorem test_hdrType11 :
    shown (.hdrType11 { seq := 0, ack := 0, crcPresent := false, reliable := false, len := 1, checksum := 0xE4 } [0xAB]) active =
      [.onPacket 0 11 [0xAB]] := by decide
/-- A21 with type 12: `00 1C 00 E3 AB` (R61, R64). -/
theorem test_hdrType12 :
    shown (.hdrType12 { seq := 0, ack := 0, crcPresent := false, reliable := false, len := 1, checksum := 0xE3 } [0xAB]) active =
      [.onPacket 0 12 [0xAB]] := by decide
/-- A21 with type 13: `00 1D 00 E2 AB` (R61, R64). -/
theorem test_hdrType13 :
    shown (.hdrType13 { seq := 0, ack := 0, crcPresent := false, reliable := false, len := 1, checksum := 0xE2 } [0xAB]) active =
      [.onPacket 0 13 [0xAB]] := by decide
/-- A21 with type 14: `00 1E 00 E1 AB` (R61, R64). -/
theorem test_hdrType14 :
    shown (.hdrType14 { seq := 0, ack := 0, crcPresent := false, reliable := false, len := 1, checksum := 0xE1 } [0xAB]) active =
      [.onPacket 0 14 [0xAB]] := by decide
/-- L16: a LINK_CONTROL frame sent reliable takes a sequence number and reaches the link controller. -/
theorem test_hdrLinkControl :
    let t := after (.hdrLinkControl { seq := 0, ack := 0, crcPresent := false, reliable := true, len := 2, checksum := 0x50 }
      [0x01, 0x7E]) active
    t.expectedRxSeq = 1 ∧ t.pendUnrelQ = [lcEntry [0x02, 0x7D]] := by decide
/-- P1 step 6: SYNC is answered with SYNC_RSP. -/
theorem test_lcSync : (after (.lcSync []) syncing).pendUnrelQ = [lcEntry [0x02, 0x7D]] := by decide
/-- P1 step 8: SYNC_RSP in SYNCING. -/
theorem test_lcSyncRsp :
    let t := after (.lcSyncRsp []) syncing
    t.linkState = .configuring ∧ t.pendUnrelQ = [lcEntry [0x03, 0xFC]] ∧ t.syncTimerArmed = false ∧ t.rtxTimerArmed = true := by
  decide
/-- P1 step 10: CONFIG in CONFIGURING: CONFIG_RSP, then CONFIG. -/
theorem test_lcConfig :
    (after (.lcConfig []) configuring).pendUnrelQ = [lcEntry [0x04, 0x7B], lcEntry [0x03, 0xFC]] := by decide
/-- P1 step 13: CONFIG_RSP with configuration byte `10`. -/
theorem test_lcConfigRsp :
    let t := after (.lcConfigRsp [0x10]) configuring
    t.linkState = .active ∧ t.crcTxEnable = true ∧ shown (.lcConfigRsp [0x10]) configuring = [.notify .active] := by decide
/-- L13: an unknown pair. -/
theorem test_lcUnknown : shown (.lcUnknown [0x05, 0xFA]) active = [.diag .linkControlProtocolError] := by decide
/-- L15: an empty payload. -/
theorem test_lcUnknown_empty : shown (.lcUnknown []) active = [.diag .linkControlProtocolError] := by decide

/-- P1 step 1. -/
theorem test_openLink :
    let t := after .openLink { State.reset with poolAnswers := [true] }
    t.linkState = .syncing ∧ t.syncTimerArmed = true ∧ t.pendUnrelQ = [lcEntry [0x01, 0x7E]] := by decide
/-- R197: OPEN in ACTIVE. -/
theorem test_openLink_twice : shown .openLink active = [.result .alreadyOpen] := by decide
/-- Q5 step 6: a caller-owned entry is completed, then RESULT(0), and the state is that of reset. -/
theorem test_closeLink :
    shown .closeLink { active with pendUnrelQ := [loose] } = [.txComplete (some 9), .result .ok] ∧
    (after .closeLink { active with pendUnrelQ := [loose] }).linkState = .idle := by decide
/-- Q1b. -/
theorem test_submit_syncing : shown (.submit 1 true [0x01] false 0) syncing = [.result .linkNotActive] := by decide
/-- Q1i. -/
theorem test_submit_empty :
    shown (.submit 1 true [] false 5) active = [.result .ok] ∧
    (after (.submit 1 true [] false 5) active).pendRelQ.map (·.tag) = [some 5] := by decide
/-- P3 step 10. -/
theorem test_release :
    shown (.release 0) delivered = [.result .ok] ∧ (after (.release 0) delivered).inboundQ.map (·.id) = [1] := by decide
/-- P3 step 11. -/
theorem test_release_unknown : shown (.release 7) delivered = [.result .unknownHandle] := by decide
/-- A17: an escape byte before the first delimiter is garbage. -/
theorem test_rxByte_garbage :
    let s := { active with rxState := .waitDelimiter }
    (after (.rxByte 0xDB) s).rxState = .waitDelimiter ∧ (after (.rxByte 0xDB) s).escState = .noesc := by decide
/-- A13: a delimiter inside the payload. -/
theorem test_rxByte_cut : shown (.rxByte 0xC0) inPayload = [.diag .framingError] ∧ (after (.rxByte 0xC0) inPayload).rxHeld = false := by
  decide
/-- Q2 step 1. -/
theorem test_txPull :
    shown .txPull { active with pendRelQ := [entry 0xA0 0] } =
      [.txFrame [0xC0, 0x80, 0x11, 0x00, 0x6E, 0xA0, 0xC0]] ∧
    (after .txPull { active with pendRelQ := [entry 0xA0 0] }).nextTxSeq = 1 := by decide
/-- Q3 step 7: the window is full and an acknowledgment of 1 is owed. -/
theorem test_txPull_ack :
    shown .txPull { inFlight with ackPending := true, expectedRxSeq := 1 } =
      [.txFrame [0xC0, 0x08, 0x00, 0x00, 0xF7, 0xC0]] := by decide
/-- S6, Q8: entries with numbers 2 and 3 in flight. -/
theorem test_rtxExpire :
    let t := after .rtxExpire { inFlight with nextTxSeq := 4, unackQ := [entry 0xA 2, entry 0xB 3], pendRelQ := [] }
    t.pendRelQ.map (·.payload) = [[0xA], [0xB]] ∧ t.nextTxSeq = 2 ∧ t.unackQ = [] ∧ t.rtxTimerArmed = false := by decide
/-- R163 at the limit. -/
theorem test_syncExpire_limit :
    shown .syncExpire { syncing with syncRetry := 50 } = [.notify .syncFail] ∧
    (after .syncExpire { syncing with syncRetry := 50 }).syncRetry = 0 := by decide
/-- R215, R216: a hardware reset with four packets in flight keeps the parameters; nothing is freed or completed. -/
theorem test_hardwareReset :
    step { inFlight with params := { inFlight.params with syncRetryLimit := 2 }, sched := [.hardwareReset], poolAnswers := [] } =
      .next { State.reset with params := { State.reset.params with syncRetryLimit := 2 } } := rfl
/-- The host's way in: the word of TX_PULL placed for the fetch is run by the next step. -/
theorem test_withFetchWord : step (State.reset.withFetchWord 8 5) = .next { State.reset with out := [.txNone] } := rfl

/-! ### Witnesses: the hypotheses of the obligations can be met -/

theorem inv_active : Machine.Inv active := by constructor <;> decide
theorem inv_syncing : Machine.Inv syncing := by constructor <;> decide
theorem inv_configuring : Machine.Inv configuring := by constructor <;> decide
theorem inv_inFlight : Machine.Inv inFlight := by constructor <;> decide
theorem inv_inPayload : Machine.Inv inPayload := by constructor <;> decide
theorem inv_delivered : Machine.Inv delivered := by constructor <;> decide

/-- Headers used below: type EVENT, length 1, in the cases the checks distinguish. -/
def hdr (rel crc : Bool) (seq : SeqNum) (len : PLen) (ptype : PType) : HdrFields :=
  { seq := seq, ack := 0, crcPresent := crc, reliable := rel, len := len
    checksum := rightChecksum ptype
      { seq := seq, ack := 0, crcPresent := crc, reliable := rel, len := len, checksum := 0 } }

theorem passes_event : PassesChecks 4 (hdr true false 0 1 4) 1 [true, true] active := by
  constructor <;> first | exact inv_active | decide
theorem passes_crc_empty : PassesChecks 4 (hdr true true 0 0 4) 0 [true, true] active := by
  constructor <;> first | exact inv_active | decide
theorem passes_crc : PassesChecks 4 (hdr true true 0 1 4) 1 [true, true] active := by
  constructor <;> first | exact inv_active | decide
theorem passes_ack : PassesChecks 0 (hdr false false 0 0 0) 0 [true, true] inFlight := by
  constructor <;> first | exact inv_inFlight | decide
theorem passes_link_control : PassesChecks 15 (hdr false false 0 2 15) 2 [true, true, true] syncing := by
  constructor <;> first | exact inv_syncing | decide
theorem arrives_syncing : MessageArrives 2 [true, true, true] syncing := by
  constructor <;> first | exact inv_syncing | decide
theorem arrives_configuring : MessageArrives 2 [true, true] configuring := by
  constructor <;> first | exact inv_configuring | decide
theorem arrives_active : MessageArrives 2 [true, true] active := by
  constructor <;> first | exact inv_active | decide
/-- The longest message there is. -/
theorem arrives_longest : MessageArrives 4095 [true, true] active := by
  constructor <;> first | exact inv_active | decide
/-- The empty message. -/
theorem arrives_empty : MessageArrives 0 [true, true] active := by
  constructor <;> first | exact inv_active | decide

theorem witness_DecodeOfEncodeIsIdentity : (Instr.escInvalid 0x00).wf = true := by decide
theorem witness_EncodeOfDecodeIsIdentity : decode ⟨.cmd, [0x5], [], []⟩ = .ok .txPull := by decide
theorem witness_DecodedInstructionsAreWellFormed : decode ⟨.byte1, [0x7E], [], []⟩ = .ok (.literal 0x7E) := by decide
theorem witness_HeaderChecksumDetectsSingleBitChanges : checksumOk [0xA2, 0x32, 0x12, 0x19] = true ∧ 3 < 4 ∧ 7 < 8 := by
  decide
theorem witness_EncodedFrameShape :
    encodeFrame true [0xDB] = [0xC0] ++ 0xDB :: [0xDD, 0xC0] ∧ encodeFrame true [0xDB] = encodeFrame true [0xDB] := by decide
theorem witness_DelimFollowsReceiveState :
    active.linkState ≠ .idle ∧ active.rxState = .waitFrameStart ∧
    { active with rxState := .waitDelimiter }.linkState ≠ .idle ∧ inHeader.linkState ≠ .idle ∧ InFrame inHeader ∧
    inPayload.linkState ≠ .idle ∧ InFrame inPayload ∧ inTrailer.linkState ≠ .idle ∧ InFrame inTrailer := by decide
theorem witness_InvalidEscapesAbandonTheFrame :
    (Instr.escInvalid 0xFF).wf = true ∧ active.linkState ≠ .idle ∧ active.rxState ≠ .waitDelimiter ∧
    inPayload.linkState ≠ .idle ∧ inPayload.rxState ≠ .waitDelimiter ∧
    { active with rxState := .waitDelimiter }.linkState ≠ .idle := by decide
theorem witness_BodyCodesStoreTheirByte :
    (Instr.literal 0x7E, (0x7E : Byte)) ∈ bodyCodes 0x7E ∧ (Instr.literal 0x7E).wf = true ∧
    active.linkState ≠ .idle ∧ active.rxState = .waitFrameStart ∧
    inHeader.escState = .noesc ∧ InFrame inHeader ∧ inHeader.rxState = .waitHeader ∧ inHeader.rxHdr.length + 1 < 4 ∧
    { inPayload with rxBuf := [] }.rxState = .waitPayload ∧ { inPayload with rxBuf := [] }.rxBuf.length + 1 < inPayload.rxLen.toNat ∧
    inTrailer.rxState = .waitCrc ∧ inTrailer.rxCrc = [] := by decide
theorem witness_WireCodesAreRxBytes : wireBytes .escThenDelim = some [0xDB, 0xC0] := by decide
theorem witness_RxByteFollowsTransitionTable :
    active.linkState ≠ .idle ∧ active.rxState = .waitFrameStart ∧ (0x80 : Byte) ≠ 0xC0 ∧
    InFrame inHeader ∧ inHeader.escState = .noesc ∧
    (InFrame { inHeader with escState := .esc } ∧ (0xDB : Byte) ∉ escapeSecondBytes) ∧
    decodeByte inHeader.escState 0x00 = (.byte 0x00, .noesc) ∧
    inHeader.rxHdr.length + 1 < 4 ∧ { inHeader with rxHdr := [0x80, 0x31, 0x00] }.rxHdr.length + 1 = 4 ∧
    { inPayload with rxBuf := [] }.rxBuf.length + 1 < inPayload.rxLen.toNat ∧ inPayload.rxBuf.length + 1 = inPayload.rxLen.toNat ∧
    inTrailer.rxCrc = [] ∧ { inTrailer with rxCrc := [0xEA] }.rxCrc.length = 1 := by decide
/-- The byte that completes a header: each of the four checks failing first, an accepted header with a payload, with a trailer only,
and with nothing after it. -/
theorem witness_RxByteFollowsTransitionTable_header :
    let before (hdr : List Byte) (s : State) : State := { s with rxState := .waitHeader, rxHdr := hdr }
    let complete (hdr : List Byte) (v : Byte) (s : State) : Prop :=
      Machine.Inv (before hdr s) ∧ s.linkState ≠ .idle ∧ decodeByte (before hdr s).escState v = (.byte v, .noesc) ∧ hdr.length + 1 = 4
    (complete [0x80, 0x14, 0x00] 0x00 active ∧ checksumOk [0x80, 0x14, 0x00, 0x00] = false) ∧
    (complete [0x80, 0x14, 0x00] 0x6B syncing ∧ checksumOk [0x80, 0x14, 0x00, 0x6B] = true ∧
      hdrType [0x80, 0x14, 0x00, 0x6B] ≠ 15 ∧ syncing.linkState ≠ .active) ∧
    (complete [0x82, 0x14, 0x00] 0x69 active ∧ checksumOk [0x82, 0x14, 0x00, 0x69] = true ∧
      (hdrFields [0x82, 0x14, 0x00, 0x69]).reliable = true ∧ (hdrFields [0x82, 0x14, 0x00, 0x69]).seq ≠ active.expectedRxSeq) ∧
    complete [0x80, 0x14, 0x00] 0x6B { active with poolAnswers := [false] } ∧
    (complete [0x80, 0x14, 0x00] 0x6B active ∧ active.linkState = .active ∧
      (hdrFields [0x80, 0x14, 0x00, 0x6B]).seq = active.expectedRxSeq ∧ (hdrFields [0x80, 0x14, 0x00, 0x6B]).len ≠ 0 ∧
      active.poolAnswers = true :: [true, true]) ∧
    (complete [0xC0, 0x04, 0x00] 0x3B active ∧ checksumOk [0xC0, 0x04, 0x00, 0x3B] = true ∧
      (hdrFields [0xC0, 0x04, 0x00, 0x3B]).len = 0 ∧ (hdrFields [0xC0, 0x04, 0x00, 0x3B]).crcPresent = true) ∧
    (complete [0x80, 0x01, 0x00] 0x7E active ∧ checksumOk [0x80, 0x01, 0x00, 0x7E] = true ∧
      (hdrFields [0x80, 0x01, 0x00, 0x7E]).len = 0 ∧ (hdrFields [0x80, 0x01, 0x00, 0x7E]).crcPresent = false) := by
  refine ⟨⟨⟨?_, ?_⟩, ?_⟩, ⟨⟨?_, ?_⟩, ?_⟩, ⟨⟨?_, ?_⟩, ?_⟩, ⟨?_, ?_⟩, ⟨⟨?_, ?_⟩, ?_⟩, ⟨⟨?_, ?_⟩, ?_⟩, ⟨?_, ?_⟩, ?_⟩ <;>
    first | decide | (constructor <;> decide)
/-- The byte that completes a payload, without and with a trailer to come, and the one that completes a trailer, right (A19) and
wrong. -/
theorem witness_RxByteFollowsTransitionTable_body :
    let withCrc : State := { inPayload with rxHdr := [0xC0, 0x24, 0x00, 0x1B] }
    let last : State := { inTrailer with rxCrc := [0xEA] }
    (Machine.Inv inPayload ∧ inPayload.linkState ≠ .idle ∧ decodeByte inPayload.escState 0x00 = (.byte 0x00, .noesc) ∧
      inPayload.rxBuf.length + 1 = inPayload.rxLen.toNat ∧ (hdrFields inPayload.rxHdr).crcPresent = false) ∧
    (Machine.Inv withCrc ∧ withCrc.rxBuf.length + 1 = withCrc.rxLen.toNat ∧ (hdrFields withCrc.rxHdr).crcPresent = true) ∧
    (Machine.Inv last ∧ last.linkState ≠ .idle ∧ decodeByte last.escState 0x27 = (.byte 0x27, .noesc) ∧
      last.rxCrc.length + 1 = 2 ∧ last.rxCrc ++ [0x27] = crcTrailer (last.rxHdr ++ last.rxBuf) ∧
      last.rxCrc ++ [0x28] ≠ crcTrailer (last.rxHdr ++ last.rxBuf)) := by
  refine ⟨⟨?_, ?_⟩, ⟨?_, ?_⟩, ?_, ?_⟩ <;> first | decide | (constructor <;> decide)
theorem witness_AcceptedHeaderAwaitsItsBody :
    ((4 : PType), Instr.hdrEvent (hdr true false 0 1 4) []) ∈ allFrames (hdr true false 0 1 4) [] ∧
    PassesChecks 4 (hdr true false 0 1 4) (hdr true false 0 1 4).len.toNat [true, true] active ∧ (hdr true false 0 1 4).len ≠ 0 :=
  ⟨by decide, passes_event, by decide⟩
theorem witness_AcceptedHeaderAwaitsItsBody_empty :
    ((4 : PType), Instr.hdrEvent (hdr true true 0 0 4) []) ∈ allFrames (hdr true true 0 0 4) [] ∧
    PassesChecks 4 (hdr true true 0 0 4) (hdr true true 0 0 4).len.toNat [true, true] active ∧
    (hdr true true 0 0 4).crcPresent = true :=
  ⟨by decide, passes_crc_empty, by decide⟩
theorem witness_HeaderChecksDropInOrder :
    (Machine.Inv active ∧ Machine.Inv syncing ∧ AtBoundary active ∧ AtBoundary syncing ∧
      ((4 : PType), Instr.hdrEvent (h3 0x17) []) ∈ allFrames (h3 0x17) []) ∧
    (h3 0x00).checksum ≠ rightChecksum 4 (h3 0x00) ∧
    ((h3 0x17).checksum = rightChecksum 4 (h3 0x17) ∧ (4 : PType) ≠ 15 ∧ syncing.linkState ≠ .active) ∧
    (active.linkState = .active ∧ (h3 0x17).reliable = true ∧ (h3 0x17).seq ≠ active.expectedRxSeq) ∧
    ((h3 0x17).seq = { active with expectedRxSeq := 2, poolAnswers := [false] }.expectedRxSeq) :=
  ⟨⟨inv_active, inv_syncing, by decide, by decide, by decide⟩, by decide, by decide, by decide, by decide⟩
theorem witness_CrcMismatchDropsTheFrame :
    ((4 : PType), Instr.hdrEvent (hdr true true 0 1 4) ([0x0E] ++ [0xEA, 0x28])) ∈
      allFrames (hdr true true 0 1 4) ([0x0E] ++ [0xEA, 0x28]) ∧
    PassesChecks 4 (hdr true true 0 1 4) ([0x0E] : List Byte).length [true, true] active ∧
    (hdr true true 0 1 4).crcPresent = true ∧
    ([0xEA, 0x28] : List Byte) ≠ crcTrailer (hdrBytes 4 (hdr true true 0 1 4) ++ [0x0E]) :=
  ⟨by decide, passes_crc, by decide, by decide⟩
theorem witness_OrdinaryFrameIsDelivered :
    ((4 : PType), Instr.hdrEvent (hdr true true 0 1 4) (frameRest 4 (hdr true true 0 1 4) [0x0E])) ∈
      ordinaryFrames (hdr true true 0 1 4) (frameRest 4 (hdr true true 0 1 4) [0x0E]) ∧
    PassesChecks 4 (hdr true true 0 1 4) ([0x0E] : List Byte).length [true, true] active :=
  ⟨by decide, passes_crc⟩
theorem witness_AckFrameIsConsumed : PassesChecks 0 (hdr false false 0 0 0) ([] : List Byte).length [true, true] inFlight :=
  passes_ack
theorem witness_LinkControlFrameReachesController :
    PassesChecks 15 (hdr false false 0 2 15) ([0x01, 0x7E] : List Byte).length [true, true, true] syncing := passes_link_control
theorem witness_FrameAbandonsTheOneBefore :
    (wireBytes (.lcSync [])).bind List.head? = some 0xC0 ∧ Instr.lcSync [] ≠ .delim ∧ InFrame inPayload ∧
    inPayload.linkState ≠ .idle := by decide
theorem witness_DroppedFramesChangeNoArqState :
    (∃ t, exec (.rxByte 0xC0) inPayload = .next t ∧ .diag .framingError ∈ t.out) ∧
    (∃ t, exec (.rxByte 0x54) { inHeader with rxHdr := [0x99, 0x02, 0x00] } = .next t ∧
      .diag .headerChecksumError ∈ t.out) ∧
    (∃ t, exec (.rxByte 0x69) { inHeader with rxHdr := [0x82, 0x14, 0x00] } = .next t ∧
      .diag .outOfOrderSequence ∈ t.out) ∧
    (∃ t, exec (.rxByte 0x00) { inTrailer with rxCrc := [0xEA] } = .next t ∧ .diag .crcMismatch ∈ t.out) ∧
    (∃ t, exec (.rxByte 0x6B) { syncing with rxState := .waitHeader, rxHdr := [0x80, 0x14, 0x00] } = .next t ∧
      .diag .linkNotActive ∈ t.out) ∧
    (∃ t, exec (.rxByte 0x6B) { active with rxState := .waitHeader, rxHdr := [0x80, 0x14, 0x00], poolAnswers := [false] } = .next t ∧
      .diag .allocationFailure ∈ t.out) :=
  ⟨⟨_, rfl, by decide⟩, ⟨_, rfl, by decide⟩, ⟨_, rfl, by decide⟩, ⟨_, rfl, by decide⟩, ⟨_, rfl, by decide⟩, ⟨_, rfl, by decide⟩⟩
theorem witness_SubmitRejections :
    State.reset.linkState = .idle ∧ syncing.linkState = .syncing ∧ configuring.linkState = .configuring ∧
    active.linkState = .active ∧ (0 : PType) ∉ ([1, 2, 3, 4] : List PType) ∧ (5 : PType) ∉ ([1, 2, 3, 4] : List PType) ∧
    (4 : PType) ∈ ([1, 2, 3, 4] : List PType) ∧
    { active with poolAnswers := [false] }.poolAnswers = false :: [] := by decide
/-- The two lengths at the limit. -/
theorem witness_SubmitRejections_length :
    (List.replicate 4096 (0 : Byte)).length > 4095 ∧ (List.replicate 4095 (0 : Byte)).length ≤ 4095 := by
  rw [List.length_replicate, List.length_replicate]
  decide
theorem witness_SubmitEnqueues :
    active.linkState = .active ∧ (1 : PType) ∈ ([1, 2, 3, 4] : List PType) ∧ ([0x01] : List Byte).length ≤ 4095 ∧
    active.poolAnswers = true :: [true, true] := by decide
theorem witness_PullSendsUnreliableFirst :
    { active with pendUnrelQ := [loose] }.linkState ≠ .idle ∧ { active with pendUnrelQ := [loose] }.pendUnrelQ = loose :: [] := by
  decide
/-- Three in flight: the last place of the window. -/
theorem witness_PullSendsReliableWithinWindow :
    let s := { inFlight with unackQ := [entry 0xA3 3, entry 0xA4 4, entry 0xA5 5] }
    s.linkState ≠ .idle ∧ s.pendUnrelQ = [] ∧ s.pendRelQ = entry 0xA6 0 :: [] ∧ s.unackQ.length < 4 := by decide
theorem witness_PullAcknowledgesOrIsSilent :
    State.reset.linkState = .idle ∧ inFlight.linkState ≠ .idle ∧ inFlight.pendUnrelQ = [] ∧ 4 ≤ inFlight.unackQ.length ∧
    inFlight.ackPending = false ∧ { inFlight with ackPending := true }.ackPending = true ∧ inFlight.linkState = .active ∧
    active.pendRelQ = [] ∧ { syncing with ackPending := true }.ackPending = true ∧ syncing.linkState ≠ .active ∧
    syncing.linkState ≠ .idle ∧ syncing.pendUnrelQ = [] ∧ syncing.pendRelQ = [] := by decide
/-- A queued SYNC goes out in SYNCING (the frame of R135). -/
theorem witness_PullAcknowledgesOrIsSilent_handshake :
    let s := { syncing with pendUnrelQ := [lcEntry [0x01, 0x7E]] }
    ∃ t, Machine.Inv s ∧ s.linkState = .syncing ∧ exec .txPull s = .next t ∧
      .txFrame [0xC0, 0x00, 0x2F, 0x00, 0xD0, 0x01, 0x7E, 0xC0] ∈ t.out :=
  ⟨_, by constructor <;> decide, rfl, rfl, by decide⟩
theorem witness_BuiltFrameHoldsItsFields : ([0xC0, 0xDB] : List Byte).length ≤ 4095 := by decide
theorem witness_PruneRemovesExactlyTheOlder : Machine.Inv inFlight := inv_inFlight
theorem witness_CumulativeAckExamples :
    inFlight.unackQ = [entry 0xA2 2, entry 0xA3 3, entry 0xA4 4, entry 0xA5 5] ∧ (entry 0xA2 2).seq = 2 ∧
    (entry 0xA3 3).seq = 3 ∧ (entry 0xA4 4).seq = 4 ∧ (entry 0xA5 5).seq = 5 ∧ inFlight.nextTxSeq = 6 := by decide
theorem witness_RetransmissionTimeoutRequeues : inFlight.rtxTimerArmed = true ∧ active.rtxTimerArmed = false := by decide
theorem witness_RetransmissionRestoresTheWindow :
    Machine.Inv inFlight ∧ inFlight.linkState = .active ∧ inFlight.rtxTimerArmed = true ∧ inFlight.pendUnrelQ = [] :=
  ⟨inv_inFlight, by decide⟩
theorem witness_ReleaseFreesTheNamedEntry :
    Machine.Inv delivered ∧ delivered.linkState ≠ .idle ∧
    ({ id := 1, ptype := 4, payload := [0x02] } : RxEntry) ∈ delivered.inboundQ ∧
    ∀ e ∈ delivered.inboundQ, e.id ≠ 2 :=
  ⟨inv_delivered, by decide⟩
theorem witness_LcSendQueuesOrLosesTheMessage :
    active.poolAnswers = true :: [true, true] ∧ { active with poolAnswers := [false] }.poolAnswers = false :: [] := by decide
theorem witness_OpenStartsTheHandshake :
    State.reset.linkState = .idle ∧ { State.reset with poolAnswers := [false] }.poolAnswers = false :: [] := by decide
theorem witness_MisplacedOperationsOnlyAnswer : active.linkState ≠ .idle ∧ State.reset.linkState = .idle := by decide
theorem witness_CloseTearsDown : inFlight.linkState ≠ .idle := by decide
theorem witness_NoExpiryBetweenCloseAndOpen :
    ∃ t u, inFlight.linkState ≠ .idle ∧ exec .closeLink inFlight = .next t ∧ Instr.openLink ∉ [Instr.txPull, .rxByte 0xC0] ∧
      runOps [.txPull, .rxByte 0xC0] t = .next u := ⟨_, _, by decide, rfl, by decide, rfl⟩
theorem witness_SyncTimeoutRetriesOrNotifies :
    syncing.syncTimerArmed = true ∧ syncing.poolAnswers = true :: [true, true, true] ∧ active.syncTimerArmed = false ∧
    syncing.syncRetry < syncing.params.syncRetryLimit ∧
    ¬ { syncing with syncRetry := 50 }.syncRetry < syncing.params.syncRetryLimit := by decide
theorem witness_SyncFailureComesEveryLimitPlusOne : syncing.syncTimerArmed = true ∧ syncing.syncRetry = 0 := by decide
theorem witness_SyncIsAnswered : MessageArrives (([] : List Byte).length + 2) (true :: [true, true]) syncing := arrives_syncing
theorem witness_SyncIsAnswered_longest :
    MessageArrives ((List.replicate 4093 (0 : Byte)).length + 2) (true :: [true]) active := by
  rw [List.length_replicate]
  exact arrives_longest
theorem witness_SyncRspStartsConfiguring :
    MessageArrives (([] : List Byte).length + 2) (true :: [true, true]) syncing ∧ syncing.linkState = .syncing :=
  ⟨arrives_syncing, by decide⟩
theorem witness_ConfigIsAnswered :
    (MessageArrives (([] : List Byte).length + 2) (true :: true :: []) configuring ∧ configuring.linkState = .configuring) ∧
    (MessageArrives (([] : List Byte).length + 2) (true :: [true]) active ∧ active.linkState = .active) :=
  ⟨⟨arrives_configuring, by decide⟩, arrives_active, by decide⟩
theorem witness_ConfigRspActivatesTheLink :
    MessageArrives (([] : List Byte).length + 2) [true, true] configuring ∧ configuring.linkState = .configuring :=
  ⟨arrives_configuring, by decide⟩
theorem witness_MisplacedMessagesAreIgnored :
    MessageArrives (([] : List Byte).length + 2) [true, true, true] syncing ∧
    MessageArrives (([] : List Byte).length + 2) [true, true] configuring ∧
    MessageArrives (([] : List Byte).length + 2) [true, true] active ∧
    syncing.linkState = .syncing ∧ configuring.linkState = .configuring ∧ active.linkState = .active :=
  ⟨arrives_syncing, arrives_configuring, arrives_active, by decide⟩
theorem witness_UnknownMessageIsDiagnosed :
    (Instr.lcUnknown []).wf = true ∧ MessageArrives ([] : List Byte).length [true, true] active := ⟨by decide, arrives_empty⟩
theorem witness_HandshakeScenario :
    MessageArrives 2 (true :: true :: [true]) syncing ∧ syncing.linkState = .syncing ∧ syncing.pendUnrelQ = [] :=
  ⟨arrives_syncing, by decide⟩
theorem witness_ResetValues :
    (∃ t, active.linkState ≠ .idle ∧ exec .closeLink active = .next t) ∧
    ∃ t, State.reset.linkState = .idle ∧ { State.reset with poolAnswers := [true] }.poolAnswers = true :: [] ∧
      exec .openLink { State.reset with poolAnswers := [true] } = .next t :=
  ⟨⟨_, by decide, rfl⟩, ⟨_, by decide, rfl, rfl⟩⟩
theorem witness_LinkStateChangesOnlyAsListed :
    (∃ t, exec .closeLink active = .next t ∧ t.linkState ≠ active.linkState) ∧
    ∃ t, wireBytes (.lcSyncRsp []) ≠ none ∧ exec (.lcSyncRsp []) syncing = .next t ∧ t.linkState = .configuring :=
  ⟨⟨_, rfl, by decide⟩, _, by decide, rfl, by decide⟩
theorem witness_EveryStepKeepsTheInvariant :
    ∃ t, Machine.Inv (inFlight.withFetchWord 8 6) ∧ step (inFlight.withFetchWord 8 6) = .next t :=
  ⟨_, by constructor <;> decide, rfl⟩
theorem witness_OnlyOpenActsInIdle :
    ∃ t, Machine.Inv State.reset ∧ State.reset.linkState = .idle ∧ Instr.rxByte 0xC0 ≠ .openLink ∧
      exec (.rxByte 0xC0) State.reset = .next t :=
  ⟨_, by constructor <;> decide, by decide, by decide, rfl⟩
theorem witness_UnansweredPoolCallsTakeTheFreeValue : State.reset.poolAnswers = [] := by decide
theorem witness_GivenAnswersStandForTheFreeValue :
    let s := { active with poolAnswers := [] }
    ∃ t, s.poolAnswers = [] ∧
      exec (.submit 1 true [0x01] false 0)
        { s with poolAnswers := (List.range 2).map fun k => Config.poolAnswer (s.poolDraws + k) } = .next t ∧
      t.poolAnswers ≠ [] := by
  refine ⟨_, rfl, rfl, ?_⟩
  cases h : Config.poolAnswer 0 <;>
    simp [submitOp, active, State.begin, submittable, Config.maxPayload, acquire, State.emit, h, List.range_succ,
      rejectSubmit, answer, free, enqueueSubmit, State.reset]
theorem witness_ParametersNeverChange : ∃ t, exec .closeLink inFlight = .next t := ⟨_, rfl⟩
theorem witness_OperationsWriteOnlyTheirColumn :
    (∃ t, exec (.submit 1 true [0x01] false 0) active = .next t) ∧ (∃ t, exec (.release 0) delivered = .next t) ∧
    (∃ t, exec (.rxByte 0x0E) inPayload = .next t) ∧ (∃ t, exec .txPull inFlight = .next t) ∧
    (∃ t, exec .rtxExpire inFlight = .next t) ∧ ∃ t, exec .syncExpire syncing = .next t :=
  ⟨⟨_, rfl⟩, ⟨_, rfl⟩, ⟨_, rfl⟩, ⟨_, rfl⟩, ⟨_, rfl⟩, ⟨_, rfl⟩⟩
theorem witness_StepRunsTheDecodedInstruction :
    (active.withFetchWord 8 5).sched = .request ⟨.cmd, [5], [], []⟩ :: [] ∧ { inFlight with sched := [.hardwareReset] }.sched = .hardwareReset :: [] ∧ decode ⟨.cmd, [5], [], []⟩ = .ok .txPull ∧
    decode ⟨.cmd, [8], [], []⟩ = .error .unassignedCommand ∧ active.sched = [] ∧ decodeTableWord 8 5 = some .txPull := by decide
theorem witness_PulledPacketIsDeliveredByThePeer :
    let x := { active with pendRelQ := [entry 0xC0 0] }
    x.linkState ≠ .idle ∧ x.pendUnrelQ = [] ∧ x.pendRelQ = entry 0xC0 0 :: [] ∧ x.unackQ.length < 4 ∧
    (entry 0xC0 0).payload.length ≤ 4095 ∧ (entry 0xC0 0).ptype ≠ 0 ∧ (entry 0xC0 0).ptype ≠ 15 ∧
    Machine.Inv active ∧ active.linkState = .active ∧ AtBoundary active ∧ active.expectedRxSeq = x.nextTxSeq ∧
    active.poolAnswers = true :: [true, true] :=
  ⟨by decide, by decide, by decide, by decide, by decide, by decide, by decide, inv_active, by decide⟩
theorem witness_ReliableExchangeCompletes :
    let x := { active with pendRelQ := [entry 0xC0 0] }
    Machine.Inv x ∧ x.linkState = .active ∧ AtBoundary x ∧ x.pendUnrelQ = [] ∧ x.pendRelQ = entry 0xC0 0 :: [] ∧
    x.unackQ = [] ∧ x.poolAnswers = true :: [true, true] ∧ (entry 0xC0 0).ptype ≠ 0 ∧ (entry 0xC0 0).ptype ≠ 15 ∧
    Machine.Inv active ∧ active.linkState = .active ∧ AtBoundary active ∧ active.expectedRxSeq = x.nextTxSeq ∧
    active.pendUnrelQ = [] ∧ active.pendRelQ = [] ∧ active.poolAnswers = true :: [true, true] :=
  ⟨by constructor <;> decide, by decide, by decide, by decide, by decide, by decide, by decide, by decide, by decide,
    inv_active, by decide⟩

end Sys2Proof.Tests
end

section
/-! PROOF. The reset values (10_state R38): what each update that OPEN and CLOSE make leaves of the table, and O49 from these. -/

namespace Sys2Proof.Machine

/-! ### The table of R38 under each update -/

/-- `resetRegs` writes the whole table, whatever the registers held. -/
theorem registersReset_resetRegs (s : State) : RegistersReset .idle false [] s.resetRegs := by
  constructor <;> simp

section
variable {link : LinkState} {sync : Bool} {q : List TxEntry} {s : State}

theorem RegistersReset.setLinkState (h : RegistersReset link sync q s) (link' : LinkState) :
    RegistersReset link' sync q { s with linkState := link' } :=
  { h with linkState := rfl }

theorem RegistersReset.answer (h : RegistersReset link sync q s) (code : ErrCode) :
    RegistersReset link sync q (answer code s) :=
  { h with }

theorem RegistersReset.startSyncTimer (h : RegistersReset link sync q s) :
    RegistersReset link true q (startSyncTimer s) :=
  { h with syncTimerArmed := startSyncTimer_syncTimerArmed s }

/-- LC_SEND touches one entry of the table, `pend_unrel_q`, and that only if the pool grants the buffer (R159). -/
theorem RegistersReset.lcSend {ok : Bool} {answers : List Bool} (h : RegistersReset link sync q s) (m : LcMsg)
    (hpool : s.poolAnswers = ok :: answers) :
    RegistersReset link sync (q ++ sent ok (lcPayload s.params m)) (lcSend m s) := by
  rw [lcSend_answered m s ok answers hpool]
  exact { h with pendUnrelQ := congrArg (· ++ sent ok (lcPayload s.params m)) h.pendUnrelQ }

end

/-! ### The two operations -/

/-- CLOSE ends in `resetRegs` and its answer, so what it tears down before leaves no trace in the registers (R180). -/
theorem closeOp_registersReset {s : State} (hopen : s.linkState ≠ .idle) : RegistersReset .idle false [] (closeOp s) := by
  rw [closeOp, if_neg hopen]
  exact (registersReset_resetRegs _).answer .ok

/-- OPEN in IDLE resets the registers first, and then writes the three entries R38 marks for OPEN (R157). -/
theorem openOp_registersReset {s : State} {ok : Bool} {answers : List Bool} (hidle : s.linkState = .idle)
    (hpool : s.poolAnswers = ok :: answers) :
    RegistersReset .syncing true (sent ok [0x01, 0x7E]) (openOp s) := by
  have hsyncing : RegistersReset .syncing false [] { s.resetRegs with linkState := .syncing } :=
    (registersReset_resetRegs s).setLinkState .syncing
  rw [openOp, if_pos hidle]
  exact ((hsyncing.lcSend .sync hpool).startSyncTimer).answer .ok

/-- Settles O49: power-up and hardware reset are the table itself; CLOSE and OPEN are the two lemmas above. -/
theorem resetValues : Obligations.ResetValues := by
  refine ⟨registersReset_resetRegs State.reset, fun s => registersReset_resetRegs s.begin, ?_, ?_⟩
  · rintro s _ hopen ⟨⟩
    exact closeOp_registersReset (s := s.begin) hopen
  · rintro ok answers s _ hidle hpool ⟨⟩
    exact openOp_registersReset (s := s.begin) hidle hpool

end Sys2Proof.Machine
end

section
/-! PROOF. The Byte Codec (40_byte_codec R91 to R97): the pure decoder reads back every body the encoder wrote, and O9 from
this. -/

namespace Sys2Proof.Machine

/-! ### The pure decoder, one wire form at a time -/

/-- A byte that is neither the delimiter nor the escape byte stands for itself (R96). -/
theorem decodeBody_literal {b : Byte} (hdelim : b ≠ Config.delimByte) (hesc : b ≠ Config.escByte) (bs : List Byte) :
    decodeBody .noesc (b :: bs) = (decodeBody .noesc bs).map (b :: ·) := by
  simp [decodeBody, decodeByte, hdelim, hesc]

/-- The escape byte gives nothing, and the code after it gives the byte it stands for (R96, R97). -/
theorem decodeBody_escape {c b : Byte} (hcode : unescape c = .byte b) (bs : List Byte) :
    decodeBody .noesc (Config.escByte :: c :: bs) = (decodeBody .noesc bs).map (b :: ·) := by
  have hdelim : Config.escByte ≠ Config.delimByte := by decide
  simp [decodeBody, decodeByte, hdelim, hcode]

/-! ### The encoder's output -/

/-- The wire form of a byte, under either flow setting, decodes to that byte and leaves the decoder outside an escape. -/
theorem decodeBody_escMap_append (sw : Bool) (b : Byte) (bs : List Byte) :
    decodeBody .noesc (escMap sw b ++ bs) = (decodeBody .noesc bs).map (b :: ·) := by
  rcases escMap_cases sw b with ⟨hwire, hdelim, hesc⟩ | ⟨c, hwire, -, hcode⟩ <;> rw [hwire]
  · exact decodeBody_literal hdelim hesc bs
  · exact decodeBody_escape hcode bs

theorem decodeBody_escBody (sw : Bool) (body : List Byte) : decodeBody .noesc (escBody sw body) = some body := by
  induction body with
  | nil => rfl
  | cons b bs ih => rw [escBody, decodeBody_escMap_append, ih, Option.map_some]

/-- Between the two delimiters of a frame stands the escaped body (R91). -/
theorem encodeFrame_between_delimiters (sw : Bool) (body : List Byte) :
    ((encodeFrame sw body).drop 1).dropLast = escBody sw body := by
  simp [encodeFrame]

/-- Settles O9: what stands between the delimiters is the escaped body, and that decodes to the body. -/
theorem decodingUndoesEncoding : Obligations.DecodingUndoesEncoding := by
  intro sw p
  rw [encodeFrame_between_delimiters, decodeBody_escBody]

end Sys2Proof.Machine
end

section
/-! PROOF. The ARQ Engine (42_arq_engine R141): the sequence numbers in flight are consecutive, so the entries older than an
acknowledgment are the first ones of `unack_q`, as many as PRUNE takes off; O29 from this. -/

namespace Sys2Proof.Machine

/-! ### The places of the older entries -/

/-- The acknowledgment is one of the `n + 1` sensible values exactly when PRUNE finds an index for it. -/
theorem any_sensible_eq_isSome_ackIndex (next a : SeqNum) (n : Nat) :
    ((List.range (n + 1)).any fun j => a == next - BitVec.ofNat 3 j) = (ackIndex next a n).isSome :=
  List.isSome_find?.symm

/-- Of consecutive sequence numbers, the older ones stand in the first places. A larger window would not do: the distance
of an acknowledged entry that stays, read modulo 8, must not fall back among `1..n`. -/
theorem olderThan_consecutive_iff (next a : SeqNum) {n i : Nat} (hn : n ≤ Config.window) (hi : i < n) :
    olderThan next a n (next - BitVec.ofNat 3 n + BitVec.ofNat 3 i) = true ↔ i < n - (next - a).toNat := by
  have hwindow : n ≤ 4 := hn
  have hdist : a - (next - BitVec.ofNat 3 n + BitVec.ofNat 3 i) = BitVec.ofNat 3 n - BitVec.ofNat 3 i - (next - a) := by
    bv_omega
  rw [olderThan, any_sensible_eq_isSome_ackIndex, ackIndex_eq next a n (by omega), hdist]
  have hd := (next - a).isLt
  generalize next - a = d at *
  by_cases hvalid : d.toNat ≤ n
  · simp only [hvalid, if_true, Option.isSome_some, Bool.true_and, decide_eq_true_eq, BitVec.toNat_sub,
      BitVec.toNat_ofNat]
    omega
  · simp only [hvalid, if_false, Option.isSome_none, Bool.false_and, Bool.false_eq_true, false_iff]
    omega

theorem SeqsConsecutive.seq_getElem {next : SeqNum} {q : List TxEntry} (h : SeqsConsecutive next q) {i : Nat}
    (hi : i < q.length) : q[i].seq = next - BitVec.ofNat 3 q.length + BitVec.ofNat 3 i := by
  have := congrArg (·[i]?) h
  simpa [hi] using this

/-- A test that passes exactly in the first `k` places cuts the list there. -/
theorem filter_eq_take_and_drop {α : Type} {p : α → Bool} {l : List α} {k : Nat}
    (h : ∀ i (hi : i < l.length), p l[i] = true ↔ i < k) :
    l.filter p = l.take k ∧ l.filter (fun e => !p e) = l.drop k := by
  have hfirst : ∀ e ∈ l.take k, p e = true := by
    intro e he
    obtain ⟨i, hi, rfl⟩ := List.mem_take_iff_getElem.mp he
    exact (h i (by omega)).mpr (by omega)
  have hrest : ∀ e ∈ l.drop k, p e = false := by
    intro e he
    obtain ⟨i, hi, rfl⟩ := List.mem_drop_iff_getElem.mp he
    exact Bool.eq_false_iff.mpr fun hp => absurd ((h _ (by omega)).mp hp) (by omega)
  have hcut (r : α → Bool) : l.filter r = (l.take k).filter r ++ (l.drop k).filter r := by
    rw [← List.filter_append, List.take_append_drop]
  constructor
  · rw [hcut, List.filter_eq_self.mpr hfirst, List.filter_eq_nil_iff.mpr (by simpa using hrest), List.append_nil]
  · rw [hcut, List.filter_eq_nil_iff.mpr (by simpa using hfirst), List.filter_eq_self.mpr (by simpa using hrest),
      List.nil_append]

theorem SeqsConsecutive.filter_olderThan {next : SeqNum} {q : List TxEntry} (h : SeqsConsecutive next q)
    (hwindow : q.length ≤ Config.window) (a : SeqNum) :
    q.filter (fun e => olderThan next a q.length e.seq) = q.take (q.length - (next - a).toNat) ∧
      q.filter (fun e => !olderThan next a q.length e.seq) = q.drop (q.length - (next - a).toNat) := by
  refine filter_eq_take_and_drop fun i hi => ?_
  rw [h.seq_getElem hi]
  exact olderThan_consecutive_iff next a hwindow hi

/-! ### PRUNE -/

/-- What PRUNE does, by the distance of the acknowledgment from `next_tx_seq`; a distance beyond the entries in flight takes
off none. -/
theorem prune_eq_by_distance (a : SeqNum) (s : State) (hn : s.unackQ.length < 8) :
    let k := s.unackQ.length - (s.nextTxSeq - a).toNat
    prune a s =
      { s with
        unackQ := s.unackQ.drop k
        rtxTimerArmed := if s.unackQ.drop k = [] then false else s.rtxTimerArmed
        out := s.out ++ endEvents (s.unackQ.take k) ++
          (if (s.nextTxSeq - a).toNat ≤ s.unackQ.length then [] else [.diag .invalidAck]) ++
          if s.unackQ.drop k = [] then [.timer .rtx .stop] else [] } := by
  obtain ⟨k, events, hfound, hinvalid, hprune⟩ := prune_eq a s
  rw [ackIndex_eq _ _ _ hn] at hfound hinvalid
  have harmed (q : List TxEntry) : (s.rtxTimerArmed && !q.isEmpty) = if q = [] then false else s.rtxTimerArmed := by
    cases q <;> simp
  by_cases hd : (s.nextTxSeq - a).toNat ≤ s.unackQ.length
  · obtain ⟨rfl, rfl⟩ := hfound _ (if_pos hd)
    rw [hprune, harmed]
    simp only [hd, if_true, List.append_nil, List.isEmpty_iff]
  · obtain ⟨rfl, rfl⟩ := hinvalid (if_neg hd)
    have hnone : s.unackQ.length - (s.nextTxSeq - a).toNat = 0 := by omega
    rw [hprune, harmed]
    simp only [hd, hnone, if_false, List.take_zero, List.isEmpty_iff, endEvents, List.map_nil, List.append_nil]

/-- Settles O29: the older entries are the first ones, and PRUNE takes off that many. -/
theorem pruneRemovesExactlyTheOlder : Obligations.PruneRemovesExactlyTheOlder := by
  intro a s hinv
  have hwindow : s.unackQ.length ≤ 4 := hinv.window
  obtain ⟨hold, hkept⟩ := SeqsConsecutive.filter_olderThan hinv.seqs hinv.window a
  dsimp only
  rw [hold, hkept]
  exact prune_eq_by_distance a s (by omega)

end Sys2Proof.Machine
end

section
/-! PROOF. The encodings (30_encoding): a header's fields and its four bytes determine each other, the decoder reads back what the
encoder writes (O1), and what it accepts is a well-formed instruction's own encoding (O2, O3). -/

namespace Sys2Proof.Machine

/-! ### Header bytes and header fields -/

/-- The fields of `h0` fill it. -/
theorem hdrByte0_of_fields (b : Byte) :
    hdrByte0 (b.extractLsb' 0 3) (b.extractLsb' 3 3) (b.getLsbD 6) (b.getLsbD 7) = b := by
  revert b; decide

/-- The type nibble and the low nibble of the length fill `h1`. -/
theorem hdrByte1_of_nibbles (b : Byte) :
    (b.extractLsb' 0 4).setWidth 8 ||| (((b.extractLsb' 4 4 : BitVec 4).setWidth 8) <<< 4) = b := by
  revert b; decide

theorem setWidth_append_low (high : Byte) (low : BitVec 4) : ((high ++ low : BitVec (8 + 4)) : PLen).setWidth 4 = low := by
  rw [BitVec.setWidth_append]
  simp

theorem hdrByte2_append (high : Byte) (low : BitVec 4) : hdrByte2 (high ++ low : BitVec (8 + 4)) = high := by
  apply BitVec.eq_of_getLsbD_eq
  intro i hi
  have : (high ++ low : BitVec (8 + 4)).getLsbD (4 + i) = high.getLsbD i := by
    rw [BitVec.getLsbD_append]; simp
  simpa [hdrByte2, hi] using this

/-- A header has no spare bit. -/
theorem hdrBytes_of_fields (h0 h1 h2 h3 : Byte) :
    hdrBytes (hdrType [h0, h1, h2, h3]) (hdrFields [h0, h1, h2, h3]) = [h0, h1, h2, h3] := by
  have hlow : hdrByte1 (h1.extractLsb' 0 4) (h2 ++ h1.extractLsb' 4 4 : BitVec (8 + 4)) = h1 := by
    rw [hdrByte1, setWidth_append_low, hdrByte1_of_nibbles]
  simp only [hdrBytes, hdrType, hdrFields, hdrAt, List.getD_cons_zero, List.getD_cons_succ, hdrByte0_of_fields, hlow,
    hdrByte2_append]

/-- HDR_BUILD is the header of its fields with the right checksum (R63). -/
theorem hdrBuild_eq_hdrBytes (seq ack : SeqNum) (crc rel : Bool) (ptype : PType) (len : PLen) :
    hdrBuild seq ack crc rel ptype len =
      hdrBytes ptype ⟨seq, ack, crc, rel, len, rightChecksum ptype ⟨seq, ack, crc, rel, len, 0⟩⟩ := rfl

/-- Settles O5: HDR_BUILD writes the bytes of its fields, and those read back; the other way no bit is left over. -/
theorem headerFieldsRoundTrip : Obligations.HeaderFieldsRoundTrip := by
  refine ⟨fun seq ack crc rel ptype len => ?_, hdrBytes_of_fields, by decide⟩
  rw [hdrBuild_eq_hdrBytes, ← List.append_nil (hdrBytes _ _), hdrType_hdrBytes, hdrFields_hdrBytes, checksumOk_hdrBytes]
  exact ⟨rfl, ⟨_, rfl⟩, beq_self_eq_true _⟩

/-! ### The header checksum -/

theorem checksumOk_iff (h0 h1 h2 h3 : Byte) : checksumOk [h0, h1, h2, h3] = true ↔ h3 = ~~~(h0 + h1 + h2) := by
  simp [checksumOk, hdrAt, hdrChecksum]

/-- R64's equivalent form: the four bytes add up to `0xFF`. -/
theorem checksumOk_iff_sum (h0 h1 h2 h3 : Byte) :
    checksumOk [h0, h1, h2, h3] = true ↔ h0 + h1 + h2 + h3 = 0xFF := by
  rw [checksumOk_iff, BitVec.not_eq_neg_add]
  constructor <;> intro h
  · subst h; bv_omega
  · bv_omega

/-- Changing one bit changes a byte. -/
theorem xor_bit_ne (b : Byte) {bit : Nat} (hbit : bit < 8) : b ^^^ ((1 : Byte) <<< bit) ≠ b := by
  have hone : (1 : Byte) <<< bit ≠ 0 := by interval_cases bit <;> decide
  intro h
  exact hone (BitVec.xor_right_inj b |>.mp (by simpa using h))

/-- A sum changes when exactly one of its four bytes does, so the changed header fails the test. -/
theorem checksumOk_single_change {h0 h1 h2 h3 : Byte} (hok : checksumOk [h0, h1, h2, h3] = true) {i : Nat} (hi : i < 4)
    {f : Byte → Byte} (hf : ∀ b, f b ≠ b) : checksumOk ([h0, h1, h2, h3].modify i f) = false := by
  rw [checksumOk_iff_sum] at hok
  rw [Bool.eq_false_iff]
  have h := hf
  interval_cases i <;>
    simp only [List.modify_zero_cons, List.modify_succ_cons, ne_eq, checksumOk_iff_sum] <;> intro hsum
  · exact hf h0 (by bv_omega)
  · exact hf h1 (by bv_omega)
  · exact hf h2 (by bv_omega)
  · exact hf h3 (by bv_omega)

/-- Settles O6: the test is that the four bytes add up to `0xFF`, which one changed byte breaks and `+1`, `-1` keeps. -/
theorem headerChecksumDetectsSingleBitChanges : Obligations.HeaderChecksumDetectsSingleBitChanges := by
  intro h0 h1 h2 h3
  refine ⟨checksumOk_iff .., checksumOk_iff_sum .., fun hok => ⟨fun i bit hi hbit => ?_, ?_⟩⟩
  · exact checksumOk_single_change hok hi fun b => xor_bit_ne b hbit
  · rw [checksumOk_iff_sum] at hok ⊢
    rw [← hok]
    ring

end Sys2Proof.Machine

namespace Sys2Proof

open Machine

/-! ### Decode of encode -/

theorem decode_encodeHeader (ptype : PType) (h : HdrFields) (rest : List Byte) :
    decode (encodeHeader ptype h rest) = .ok (headerOf ptype h rest) := by
  have htype := hdrType_hdrBytes ptype h []
  have hfields := hdrFields_hdrBytes ptype h []
  rw [List.append_nil] at htype hfields
  simp [decode, encodeHeader, decodeHeader, htype, hfields]
  rfl

/-- The instruction of a link-control payload (R71). -/
def messageInstr (payload : List Byte) : Instr :=
  match lcClassify payload with
  | some .sync => .lcSync (payload.drop 2)
  | some .syncRsp => .lcSyncRsp (payload.drop 2)
  | some .config => .lcConfig (payload.drop 2)
  | some .configRsp => .lcConfigRsp (payload.drop 2)
  | none => .lcUnknown payload

/-- The decoder splits a message as the encoder does, so it sees the whole payload. -/
theorem decode_encodeMessage {payload : List Byte} (hfits : payload.length ≤ Config.maxPayload) :
    decode (encodeMessage payload) = .ok (messageInstr payload) := by
  have hshape : ¬ ((payload.take 2).length > 2 ∨ (payload.take 2).length < 2 ∧ payload.drop 2 ≠ []) := by
    simp
    omega
  have hlen : ¬ (payload.take 2).length + (payload.drop 2).length > Config.maxPayload := by
    rw [← List.length_append, List.take_append_drop]
    omega
  simp only [decode, encodeMessage, if_true, decodeMessage, if_neg hshape, if_neg hlen, List.take_append_drop,
    messageInstr]
  split <;> simp_all

theorem decode_encodeCommand_submit (ptype : PType) (reliable : Bool) (payload : List Byte) (owned : Bool) (tag : Nat) :
    decode (encodeCommand 0x2 [ptype.toNat, reliable.toNat, owned.toNat, tag] payload) =
      .ok (.submit ptype reliable payload owned tag) := by
  have hbits : ptype.toNat < 16 ∧ reliable.toNat < 2 ∧ owned.toNat < 2 :=
    ⟨ptype.isLt, Bool.toNat_lt _, Bool.toNat_lt _⟩
  have hflag (b : Bool) : (b.toNat == 1) = b := by cases b <;> rfl
  simp [decode, encodeCommand, decodeCommand, decodeSubmit, hbits, hflag]

theorem decode_encode {i : Instr} (hwf : i.wf = true) : decode (encode i) = .ok i := by
  cases i
  case submit => exact decode_encodeCommand_submit ..
  case escInvalid x =>
    simp_all [encode, encodeBytes, decode, decodeByte2, Instr.wf, escapeSecondBytes, Config.escByte]
  case literal b =>
    simp_all [encode, encodeBytes, decode, decodeByte1, Instr.wf]
  case lcUnknown payload =>
    simp only [Instr.wf, Bool.and_eq_true, Option.isNone_iff_eq_none, decide_eq_true_eq] at hwf
    obtain ⟨hunknown, hfits⟩ := hwf
    rw [encode, decode_encodeMessage hfits, messageInstr, hunknown]
  case lcSync params => exact decode_encodeMessage (payload := lcPair .sync ++ params) (of_decide_eq_true hwf)
  case lcSyncRsp params => exact decode_encodeMessage (payload := lcPair .syncRsp ++ params) (of_decide_eq_true hwf)
  case lcConfig params => exact decode_encodeMessage (payload := lcPair .config ++ params) (of_decide_eq_true hwf)
  case lcConfigRsp params => exact decode_encodeMessage (payload := lcPair .configRsp ++ params) (of_decide_eq_true hwf)
  case rxByte b => simp [encode, encodeCommand, decode, decodeCommand, b.isLt]
  case hdrAck | hdrCommand | hdrAclData | hdrScoData | hdrEvent | hdrType5 | hdrType6 | hdrType7 | hdrType8 | hdrType9
      | hdrType10 | hdrType11 | hdrType12 | hdrType13 | hdrType14 | hdrLinkControl =>
    exact decode_encodeHeader ..
  all_goals rfl

/-- Settles O1: each format's encoder is undone by its decoder. -/
theorem decodeOfEncodeIsIdentity : Obligations.DecodeOfEncodeIsIdentity := fun _ => decode_encode

/-! ### Encode of decode -/

/-- The instruction is a well-formed code, and this request is its encoding. -/
def Encodes (r : Request) (i : Instr) : Prop := encode i = r ∧ i.wf = true

theorem decodeByte1_encodes {b : Byte} {i : Instr} (h : decodeByte1 b = .ok i) :
    Encodes ⟨.byte1, [b], [], []⟩ i := by
  unfold decodeByte1 at h
  split at h
  case isTrue hdelim => obtain rfl := Except.ok.inj h; exact ⟨by rw [hdelim]; rfl, rfl⟩
  case isFalse hdelim =>
    split at h
    case isTrue => cases h
    case isFalse hesc => obtain rfl := Except.ok.inj h; exact ⟨rfl, by simp [Instr.wf, hdelim, hesc]⟩

theorem decodeByte2_encodes {a x : Byte} {i : Instr} (h : decodeByte2 a x = .ok i) :
    Encodes ⟨.byte2, [a, x], [], []⟩ i := by
  unfold decodeByte2 at h
  split at h
  case isTrue => cases h
  case isFalse hfirst =>
    obtain rfl : a = Config.escByte := by simpa using hfirst
    by_cases hx : x ∈ escapeSecondBytes
    · simp only [escapeSecondBytes, List.mem_cons, List.not_mem_nil, or_false] at hx
      rcases hx with rfl | rfl | rfl | rfl | rfl <;> obtain rfl := Except.ok.inj h <;> exact ⟨rfl, rfl⟩
    · have hother := hx
      simp only [escapeSecondBytes, List.mem_cons, List.not_mem_nil, or_false, not_or] at hother
      obtain ⟨h1, h2, h3, h4, h5⟩ := hother
      rw [if_neg h1, if_neg h2, if_neg h3, if_neg h4, if_neg h5] at h
      obtain rfl := Except.ok.inj h
      exact ⟨rfl, by simpa [Instr.wf] using hx⟩

theorem headerOf_encodes (ptype : PType) (h : HdrFields) (rest : List Byte) :
    Encodes (encodeHeader ptype h rest) (headerOf ptype h rest) := by
  have every : ∀ n : Fin 16, Encodes (encodeHeader (BitVec.ofFin n) h rest) (headerOf (BitVec.ofFin n) h rest) := by
    intro n
    fin_cases n <;> exact ⟨rfl, rfl⟩
  exact every ptype.toFin

theorem decodeHeader_encodes {code rest : List Byte} {i : Instr} (h : decodeHeader code rest = .ok i) :
    Encodes ⟨.hdr, code, [], rest⟩ i := by
  unfold decodeHeader at h
  split at h
  case isFalse => cases h
  case isTrue hlen =>
    obtain ⟨h0, h1, h2, h3, rfl⟩ : ∃ h0 h1 h2 h3, code = [h0, h1, h2, h3] := by
      rwa [Config.hdrLen, List.length_eq_four] at hlen
    obtain rfl := Except.ok.inj h
    have := headerOf_encodes (hdrType [h0, h1, h2, h3]) (hdrFields [h0, h1, h2, h3]) rest
    rwa [encodeHeader, hdrBytes_of_fields] at this

/-- A payload that is classified begins with the pair of its message (R71). -/
theorem eq_lcPair_append_of_lcClassify {payload : List Byte} {m : LcMsg} (h : lcClassify payload = some m) :
    payload = lcPair m ++ payload.drop 2 := by
  rcases payload with _ | ⟨a, _ | ⟨b, rest⟩⟩
  · cases h
  · cases h
  · have hpair : [a, b] = lcPair m := by
      simp only [lcClassify] at h
      split at h
      case isTrue hp => cases h; exact hp
      split at h
      case isTrue hp => cases h; exact hp
      split at h
      case isTrue hp => cases h; exact hp
      split at h
      case isTrue hp => cases h; exact hp
      cases h
    rw [← hpair]
    rfl

theorem messageInstr_encodes {payload : List Byte} (hfits : payload.length ≤ Config.maxPayload) :
    Encodes (encodeMessage payload) (messageInstr payload) := by
  have hlen {m : LcMsg} (h : lcClassify payload = some m) : (payload.drop 2).length + 2 ≤ Config.maxPayload := by
    have := congrArg List.length (eq_lcPair_append_of_lcClassify h)
    have hpair : (lcPair m).length = 2 := by cases m <;> rfl
    rw [List.length_append, hpair] at this
    omega
  unfold messageInstr
  split
  case h_5 h => exact ⟨rfl, by simp [Instr.wf, h, hfits]⟩
  all_goals
    next h =>
      refine ⟨?_, decide_eq_true (hlen h)⟩
      conv_rhs => rw [eq_lcPair_append_of_lcClassify h]
      rfl

theorem decodeMessage_encodes {code params : List Byte} {i : Instr} (h : decodeMessage code params = .ok i) :
    Encodes ⟨.lc, code, [], params⟩ i := by
  have hsplit : ¬ (code.length > 2 ∨ code.length < 2 ∧ params ≠ []) := by
    intro hshape
    rw [decodeMessage, if_pos hshape] at h
    cases h
  have hfits : ¬ code.length + params.length > Config.maxPayload := by
    intro hlong
    rw [decodeMessage, if_neg hsplit, if_pos hlong] at h
    cases h
  have hreq : encodeMessage (code ++ params) = ⟨.lc, code, [], params⟩ := by
    rcases code with _ | ⟨a, _ | ⟨b, _ | ⟨c, code⟩⟩⟩ <;> simp_all [encodeMessage]
  have hlen : (code ++ params).length ≤ Config.maxPayload := by rw [List.length_append]; omega
  have hdec : decode (encodeMessage (code ++ params)) = decodeMessage code params := by rw [hreq]; rfl
  rw [← hdec, decode_encodeMessage hlen] at h
  rw [← hreq, ← Except.ok.inj h]
  exact messageInstr_encodes hlen

theorem decodeSubmit_encodes {ptype reliable owned tag : Nat} {payload : List Byte} {i : Instr}
    (h : decodeSubmit ptype reliable owned tag payload = .ok i) :
    Encodes ⟨.cmd, [0x2], [ptype, reliable, owned, tag], payload⟩ i := by
  unfold decodeSubmit at h
  split at h
  case isFalse => cases h
  case isTrue hbits =>
    obtain ⟨hp, hr, ho⟩ := hbits
    have hflag {n : Nat} (hn : n < 2) : (n == 1).toNat = n := by interval_cases n <;> rfl
    obtain rfl := Except.ok.inj h
    refine ⟨?_, rfl⟩
    simp [encode, encodeCommand, hflag hr, hflag ho, Nat.mod_eq_of_lt hp]

theorem decodeCommand_encodes {c : Byte} {operands : List Nat} {payload : List Byte} {i : Instr}
    (h : decodeCommand c operands payload = .ok i) : Encodes ⟨.cmd, [c], operands, payload⟩ i := by
  have hcode {n : Nat} (hn : c.toNat = n) : c = BitVec.ofNat 8 n := by rw [← hn, BitVec.ofNat_toNat, BitVec.setWidth_eq]
  unfold decodeCommand at h
  split at h
  case h_3 hn => rw [hcode hn]; exact decodeSubmit_encodes h
  case h_5 hn =>
    split at h
    case isFalse => cases h
    case isTrue hb =>
      obtain rfl := Except.ok.inj h
      exact ⟨by rw [hcode hn]; simp [encode, encodeCommand, Nat.mod_eq_of_lt hb], rfl⟩
  case h_9 => split at h <;> cases h
  all_goals
    next hn =>
      obtain rfl := Except.ok.inj h
      exact ⟨by rw [hcode hn]; rfl, rfl⟩

theorem decode_encodes {r : Request} {i : Instr} (h : decode r = .ok i) : Encodes r i := by
  obtain ⟨format, code, operands, payload⟩ := r
  unfold decode at h
  dsimp only at h
  split at h
  case h_1 =>
    split at h
    case isFalse => cases h
    case isTrue hnone => obtain ⟨rfl, rfl⟩ := hnone; exact decodeByte1_encodes h
  case h_2 =>
    split at h
    case isFalse => cases h
    case isTrue hnone => obtain ⟨rfl, rfl⟩ := hnone; exact decodeByte2_encodes h
  case h_5 =>
    split at h
    case isFalse => cases h
    case isTrue hnone => obtain rfl := hnone; exact decodeHeader_encodes h
  case h_6 =>
    split at h
    case isFalse => cases h
    case isTrue hnone => obtain rfl := hnone; exact decodeMessage_encodes h
  case h_7 => exact decodeCommand_encodes h
  all_goals cases h

/-- Settles O2. -/
theorem encodeOfDecodeIsIdentity : Obligations.EncodeOfDecodeIsIdentity := fun _ _ h => (decode_encodes h).1

/-- Settles O3. -/
theorem decodedInstructionsAreWellFormed : Obligations.DecodedInstructionsAreWellFormed :=
  fun _ _ h => (decode_encodes h).2

/-! ### Written-out words and listed values -/

/-- Settles O4: nine closed evaluations of the decoder. -/
theorem writtenOutWordsDecode : Obligations.WrittenOutWordsDecode := by
  refine ⟨?_, ?_, ?_, ?_, ?_, ?_, ?_, ?_, ?_⟩ <;> decide

/-- Settles O7: the sixteen table entries, and the register and trailer values the rule lists. -/
theorem crcTableAndKnownValues : Obligations.CrcTableAndKnownValues := by
  refine ⟨?_, ?_, ?_, ?_, ?_, ?_, ?_, ?_, ?_⟩ <;> decide

/-! ### One step -/

/-- A word the table knows is a request the decoder accepts. -/
theorem decode_of_decodeTableWord {nbits w : Nat} {i : Instr} (h : decodeTableWord nbits w = some i) :
    decode (Request.ofTable nbits w) = .ok i := by
  unfold decodeTableWord at h
  split at h
  case h_1 hdec => rw [hdec, Option.some.inj h]
  case h_2 => cases h

theorem step_of_decode_ok {s : State} {r : Request} {rest : List Input} {i : Instr} (h : s.sched = .request r :: rest)
    (hdec : decode r = .ok i) : step s = exec i { s with sched := rest } := by
  simp only [step, fetch, h, hdec]

theorem step_of_decode_error {s : State} {r : Request} {rest : List Input} {why : DecodeError}
    (h : s.sched = .request r :: rest) (hdec : decode r = .error why) : step s = .refused (.badRequest why) := by
  simp only [step, fetch, h, hdec]

theorem step_hardwareReset {s : State} {rest : List Input} (h : s.sched = .hardwareReset :: rest) :
    step s = .next (hardwareReset { s with sched := rest }) := by
  simp only [step, fetch, h]

theorem step_idle {s : State} (h : s.sched = []) : step s = .next s.begin := by
  simp only [step, fetch, h]

/-- Settles O58, input by input; a word put at the head of the schedule is taken off it by its own fetch. -/
theorem stepRunsTheDecodedInstruction : Obligations.StepRunsTheDecodedInstruction :=
  ⟨fun _ _ _ h => ⟨fun _ => step_of_decode_ok h, fun _ => step_of_decode_error h⟩, fun _ _ => step_hardwareReset,
    fun _ => step_idle, fun _ _ _ _ h => step_of_decode_ok rfl (decode_of_decodeTableWord h)⟩

end Sys2Proof
end

section
/-! PROOF. The invariant (10_state R33 and the ranges of R15 to R31): it splits into a part about the link and the ARQ engine, which
`emptied` keeps, and a part about the receive registers; each operation keeps both. O50 and O51 from this. -/

namespace Sys2Proof.Machine

/-! ### At reset -/

theorem inv_resetRegs (s : State) : Inv s.resetRegs := by
  constructor
  case idleReset => exact fun _ => rfl
  all_goals simp [AssemblerOk, PayloadsFit, SeqsConsecutive]

/-- Settles O50. -/
theorem invariantHoldsAtReset : Obligations.InvariantHoldsAtReset := inv_resetRegs State.reset

/-! ### Updates that keep it -/

/-- The invariant does not speak of the outputs, nor of the environment's inputs. -/
theorem Inv.setEnvironment {s : State} (h : Inv s) (sched : List Input) (answers : List Bool) (draws : Nat)
    (out : List Event) : Inv { s with sched := sched, poolAnswers := answers, poolDraws := draws, out := out } :=
  { h with
    idleReset := fun hidle => congrArg
      (fun t : State => { t with sched := sched, poolAnswers := answers, poolDraws := draws, out := out })
      (h.idleReset hidle) }

theorem Inv.setOut {s : State} (h : Inv s) (out : List Event) : Inv { s with out := out } :=
  h.setEnvironment s.sched s.poolAnswers s.poolDraws out

theorem Inv.begin {s : State} (h : Inv s) : Inv s.begin := h.setOut []

theorem Inv.emit {s : State} (h : Inv s) (e : Event) : Inv (s.emit e) := h.setOut _

section
variable {s : State} (h : Inv s) (hopen : s.linkState ≠ .idle)
include h hopen

/-- Between frames the receive registers stand at their reset values. -/
theorem Inv.toBoundary {target : RxState} (ht : target = .waitDelimiter ∨ target = .waitFrameStart) :
    Inv { emptied s with rxState := target } :=
  { h with
    idleReset := fun hidle => absurd hidle hopen
    assembler := by rcases ht with rfl | rfl <;> simp [AssemblerOk, emptied]
    accepted := by rcases ht with rfl | rfl <;> simp }

theorem Inv.clearReceive : Inv (emptied s) := h.toBoundary hopen (.inl rfl)

end

/-- The invariant of an open link, from its part about link and ARQ engine and its part about the receive registers. -/
theorem Inv.ofEmptied {s : State} (h : Inv (emptied s)) (hopen : s.linkState ≠ .idle)
    (hasm : AssemblerOk s) (hacc : s.rxState = .waitPayload ∨ s.rxState = .waitCrc → AcceptedHeader s) : Inv s :=
  { h with
    idleReset := fun hidle => absurd hidle hopen
    assembler := hasm
    accepted := hacc }

/-! ### DELIVER's parts -/

/-- The numbers of the last entries of a run of consecutive ones. -/
theorem SeqsConsecutive.drop {next : SeqNum} {q : List TxEntry} (h : SeqsConsecutive next q) (k : Nat) :
    SeqsConsecutive next (q.drop k) := by
  rw [SeqsConsecutive, List.map_drop, h, ← List.map_drop]
  apply List.ext_getElem
  · simp
  · intro i hi _
    simp only [List.length_map, List.length_drop, List.length_range] at hi
    simp only [List.getElem_map, List.getElem_drop, List.getElem_range, List.length_drop]
    have hsplit : q.length = k + (q.length - k) := by omega
    generalize q.length - k = m at *
    rw [hsplit]
    bv_omega

theorem Inv.commits {s : State} (h : Inv s) (hopen : s.linkState ≠ .idle) (hboundary : AtBoundary s) (f : HdrFields) :
    Inv (commits f s) := by
  obtain ⟨k, armed, events, hprune, harmed⟩ := prune_shape f.ack
    { s with
      expectedRxSeq := if f.reliable then f.seq + 1 else s.expectedRxSeq
      ackPending := s.ackPending || f.reliable
      lastPeerAck := f.ack }
  have hmem {e : TxEntry} (he : e ∈ s.unackQ.drop k) : e ∈ s.unackQ := List.mem_of_mem_drop he
  have hacc : ¬ (s.rxState = .waitPayload ∨ s.rxState = .waitCrc) := by
    rcases hboundary with hb | hb <;> simp [hb]
  rw [Machine.commits, hprune]
  exact
    { h with
      window := by
        have := h.window
        simp only [List.length_drop]
        omega
      seqs := h.seqs.drop k
      unackReliable := fun e he => h.unackReliable e (hmem he)
      idleReset := fun hidle => absurd hidle hopen
      onlyActive := fun hl => by
        obtain ⟨hpend, hunack, hin⟩ := h.onlyActive hl
        exact ⟨hpend, by simp [hunack], hin⟩
      rtxTimer := fun ha => h.rtxTimer (harmed ha)
      accepted := fun hrx => absurd hrx hacc
      unackFit := fun e he => h.unackFit e (hmem he) }

/-- What the link controller does keeps the invariant, also while a frame is being received. -/
theorem Inv.lcEffect {s t : State} (h : Inv s) (hopen : s.linkState ≠ .idle) (ht : LcEffect s t) : Inv t := by
  obtain ⟨link, sync, rtx, crc, q, rest, draws, events, rfl, hedge, hq⟩ := ht
  have hpend {P : TxEntry → Prop} (hold : ∀ e ∈ s.pendUnrelQ, P e)
      (hnew : ∀ e : TxEntry, e.ptype = ptLinkControl ∧ e.reliable = false ∧ e.payload.length ≤ 3 → P e) :
      ∀ e ∈ s.pendUnrelQ ++ q, P e := fun e he => (List.mem_append.mp he).elim (hold e) fun he => hnew e (hq e he)
  have hbefore : link ≠ .active → s.linkState ≠ .active := by
    rcases hedge with ⟨rfl, -⟩ | ⟨hl, -⟩ | ⟨-, rfl, -⟩ <;> simp_all
  have hlink : link ≠ .idle := by
    rcases hedge with ⟨rfl, -⟩ | ⟨-, rfl, -⟩ | ⟨-, rfl, -⟩ <;> simp [hopen]
  exact
    { h with
      pendUnreliable := hpend h.pendUnreliable fun e he => he.2.1
      idleReset := fun hidle => absurd hidle hlink
      onlyActive := fun hl => h.onlyActive (hbefore hl)
      onlyLinkControl := fun hl => hpend (h.onlyLinkControl (hbefore hl)) fun e he => he.1
      syncTimer := by
        have := h.syncTimer
        rcases hedge with ⟨rfl, rfl, -⟩ | ⟨-, -, rfl, -⟩ | ⟨hl, -, rfl, -⟩ <;> simp_all
      rtxTimer := by
        have := h.rtxTimer
        rcases hedge with ⟨rfl, -, rfl, -⟩ | ⟨-, rfl, -⟩ | ⟨-, rfl, -⟩ <;> simp_all
      crcActive := by
        have := h.crcActive
        rcases hedge with ⟨rfl, -, -, rfl⟩ | ⟨hl, -, -, -, rfl⟩ | ⟨-, rfl, -⟩ <;> simp_all
      accepted := fun hrx => by
        obtain ⟨hsum, hlen, hgate, hseq, hcrc⟩ := h.accepted hrx
        refine ⟨hsum, hlen, fun hp => ?_, hseq, hcrc⟩
        have := hgate hp
        rcases hedge with ⟨rfl, -⟩ | ⟨hl, -⟩ | ⟨hl, -⟩ <;> simp_all
      pendUnrelFit := hpend h.pendUnrelFit fun e he => he.2.2.trans (by decide) }

theorem commits_linkState (f : HdrFields) (s : State) : (commits f s).linkState = s.linkState := by
  simp [commits]

/-- A delivered packet takes the next id. -/
theorem Inv.appendInbound {s : State} (h : Inv s) (hactive : s.linkState = .active) (ptype : PType)
    {payload : List Byte} (hfits : payload.length ≤ Config.maxPayload) (out : List Event) :
    Inv { s with
      inboundQ := s.inboundQ ++ [{ id := s.rxIdNext, ptype := ptype, payload := payload }]
      rxIdNext := s.rxIdNext + 1
      out := out } :=
  { h with
    idleReset := fun hidle => absurd (hactive.symm.trans hidle) (by decide)
    onlyActive := fun hl => absurd hactive hl
    inboundFit := by
      have := h.inboundFit
      simp only [List.mem_append, List.mem_singleton]
      rintro e (he | rfl)
      · exact this e he
      · exact hfits
    inboundIds := by
      simpa [List.pairwise_append] using And.intro h.inboundIds h.inboundBelow
    inboundBelow := by
      have := h.inboundBelow
      simp only [List.mem_append, List.mem_singleton]
      rintro e (he | rfl)
      · exact Nat.lt_succ_of_lt (this e he)
      · exact Nat.lt_succ_self _ }

theorem atBoundary_emptied (s : State) : AtBoundary (emptied s) := .inl rfl

theorem Inv.delivery {s : State} (h : Inv (emptied s)) (hopen : s.linkState ≠ .idle) {ptype : PType} (f : HdrFields)
    {payload : List Byte} (hgate : ptype ≠ ptLinkControl → s.linkState = .active)
    (hfits : payload.length ≤ Config.maxPayload) : Inv (delivery ptype f payload s) := by
  have hcommit := h.commits hopen (atBoundary_emptied s) f
  have hlink : (Machine.commits f (emptied s)).linkState = s.linkState := commits_linkState f _
  unfold Machine.delivery
  dsimp only
  split
  · exact hcommit.setOut _
  split
  · exact (hcommit.lcEffect (by rwa [hlink]) (lcRx_effect payload _)).setOut _
  · next hlc => exact hcommit.appendInbound (hlink.trans (hgate hlc)) ptype hfits _

/-! ### RX_BYTE -/

/-- A frame being received in an open link: the header bytes are those of a frame that may be delivered. -/
structure Deliverable (s : State) : Prop where
  inv : Inv (emptied s)
  isOpen : s.linkState ≠ .idle
  held : s.rxHeld = true
  gate : hdrType s.rxHdr ≠ ptLinkControl → s.linkState = .active

theorem Inv.deliver {s : State} (h : Deliverable s) (hfits : s.rxBuf.length ≤ Config.maxPayload) : Inv (deliver s) := by
  rw [deliver_eq s h.held]
  exact h.inv.delivery h.isOpen _ h.gate hfits

theorem Inv.dropFrame {s : State} (h : Inv (emptied s)) (hopen : s.linkState ≠ .idle) {code : ErrCode} {target : RxState}
    (ht : target = .waitDelimiter ∨ target = .waitFrameStart) : Inv (dropFrame code target s) := by
  rw [dropFrame_eq]
  exact (h.toBoundary hopen ht).setOut _

/-- The header in the registers passed the checks of R112 to R115. -/
structure PassedChecks (s : State) : Prop extends Deliverable s where
  fourBytes : s.rxHdr.length = 4
  checksum : checksumOk s.rxHdr = true
  len : s.rxLen = (hdrFields s.rxHdr).len
  sequence : (hdrFields s.rxHdr).reliable = true → (hdrFields s.rxHdr).seq = s.expectedRxSeq

theorem rxLen_le (len : PLen) : len.toNat ≤ Config.maxPayload := Nat.lt_succ_iff.mp len.isLt

theorem Inv.payloadComplete {s : State} (h : PassedChecks s) (hbuf : s.rxBuf.length = s.rxLen.toNat) :
    Inv (payloadComplete s) := by
  unfold Machine.payloadComplete
  split
  · next hcrc =>
    exact Inv.ofEmptied h.inv h.isOpen (by simp [AssemblerOk, h.fourBytes, hbuf, h.held])
      fun _ => ⟨h.checksum, h.len, h.gate, h.sequence, fun _ => hcrc⟩
  · exact Inv.deliver h.toDeliverable (hbuf ▸ rxLen_le s.rxLen)

theorem Inv.headerComplete {s : State} (h : Inv (emptied s)) (hopen : s.linkState ≠ .idle)
    (hhdr : s.rxHdr.length = 4) (hcrc : s.rxCrc = []) : Inv (headerComplete s) := by
  unfold Machine.headerComplete
  dsimp only
  split
  · exact h.dropFrame hopen (.inl rfl)
  next hsum =>
  split
  · exact h.dropFrame hopen (.inl rfl)
  next hgate =>
  split
  · exact h.dropFrame hopen (.inl rfl)
  next hseq =>
  obtain ⟨ok, rest, draws, hacquire⟩ := acquire_spec ((hdrFields s.rxHdr).len.toNat + Config.hdrLen) s
  rw [hacquire]
  cases ok
  · show Inv (Machine.dropFrame _ _ _)
    exact Inv.dropFrame (by exact h.setEnvironment _ _ _ _) (by exact hopen) (.inl rfl)
  have hpass (rx : RxState) (out : List Event) : PassedChecks
      { s with
        rxState := rx
        rxLen := (hdrFields s.rxHdr).len
        rxBuf := []
        rxHeld := true
        poolAnswers := rest
        poolDraws := draws
        out := out } :=
    { inv := h.setEnvironment _ _ _ _
      isOpen := hopen
      held := rfl
      gate := fun hp => by_contra fun hl => hgate ⟨hp, hl⟩
      fourBytes := hhdr
      checksum := by simpa using hsum
      len := rfl
      sequence := fun hr => by_contra fun hn => hseq ⟨hr, hn⟩ }
  simp only [headerAccepted]
  split
  · next hlen => exact Inv.payloadComplete (hpass s.rxState _) (by simp [hlen])
  · next hlen =>
    have hp := hpass .waitPayload (s.out ++ [.pool (.acquire ((hdrFields s.rxHdr).len.toNat + Config.hdrLen) s.params.headerReserve)])
    refine Inv.ofEmptied hp.inv hopen ?_ fun _ => ⟨hp.checksum, rfl, hp.gate, hp.sequence, by simp⟩
    have hpos : 0 < (hdrFields s.rxHdr).len.toNat := Nat.pos_of_ne_zero fun h0 => hlen (BitVec.eq_of_toNat_eq h0)
    simp [AssemblerOk, hhdr, hcrc, hpos]

/-- Inside a frame, past its header. -/
theorem Inv.passedChecks {s : State} (h : Inv s) (hopen : s.linkState ≠ .idle)
    (hrx : s.rxState = .waitPayload ∨ s.rxState = .waitCrc) : PassedChecks s := by
  obtain ⟨hsum, hlen, hgate, hseq, -⟩ := h.accepted hrx
  obtain ⟨-, -, hpay, htrail⟩ := h.assembler
  have hregs : s.rxHdr.length = 4 ∧ s.rxHeld = true := by
    rcases hrx with hrx | hrx
    · obtain ⟨h4, -, -, hheld⟩ := hpay hrx
      exact ⟨h4, hheld⟩
    · obtain ⟨h4, -, -, hheld⟩ := htrail hrx
      exact ⟨h4, hheld⟩
  exact
    { inv := h.clearReceive hopen
      isOpen := hopen
      held := hregs.2
      gate := hgate
      fourBytes := hregs.1
      checksum := hsum
      len := hlen
      sequence := hseq }

theorem Inv.bodyByte {s : State} (h : Inv s) (hopen : s.linkState ≠ .idle) (v : Byte) : Inv (bodyByte v s) := by
  obtain ⟨-, hhead, hpay, htrail⟩ := h.assembler
  unfold Machine.bodyByte
  split
  · next hrx =>
    obtain ⟨hlt, hlen, hbuf, hcrc, hheld⟩ := hhead hrx
    unfold headerByte
    dsimp only
    split
    · next hfull => exact Inv.headerComplete (h.clearReceive hopen) hopen hfull hcrc
    · next hfull =>
      refine Inv.ofEmptied (h.clearReceive hopen) hopen ?_ (by simp [hrx])
      simp only [List.length_append, List.length_singleton, Config.hdrLen] at hfull
      simp only [AssemblerOk, hrx, List.length_append, List.length_singleton]
      simp [hlen, hbuf, hcrc, hheld]
      omega
  · next hrx =>
    obtain ⟨h4, hlt, hcrc, hheld⟩ := hpay hrx
    have hpass := h.passedChecks hopen (.inl hrx)
    unfold payloadByte
    dsimp only
    split
    · next hfull => exact Inv.payloadComplete { hpass with } hfull
    · next hfull =>
      refine Inv.ofEmptied (h.clearReceive hopen) hopen ?_ fun _ =>
        ⟨hpass.checksum, hpass.len, hpass.gate, hpass.sequence, by simp [hrx]⟩
      simp only [List.length_append, List.length_singleton] at hfull
      simp only [AssemblerOk, hrx, List.length_append, List.length_singleton]
      simp [h4, hcrc, hheld]
      omega
  · next hrx =>
    obtain ⟨h4, hbuf, hlt, hheld⟩ := htrail hrx
    have hpass := h.passedChecks hopen (.inr hrx)
    unfold crcTrailerByte
    dsimp only
    split
    · unfold crcComplete
      split
      · exact Inv.dropFrame (by exact h.clearReceive hopen) (by exact hopen) (.inl rfl)
      · exact Inv.deliver { hpass.toDeliverable with } (hbuf ▸ rxLen_le s.rxLen)
    · next hfull =>
      obtain ⟨-, -, -, -, hpresent⟩ := h.accepted (.inr hrx)
      refine Inv.ofEmptied (h.clearReceive hopen) hopen ?_ fun _ =>
        ⟨hpass.checksum, hpass.len, hpass.gate, hpass.sequence, hpresent⟩
      simp only [List.length_append, List.length_singleton, Config.crcLen] at hfull
      simp only [AssemblerOk, hrx, List.length_append, List.length_singleton]
      simp only [h4, hbuf, hheld]
      simp
      exact List.length_eq_zero_iff.mp (by omega)
  · exact h
  · exact h

theorem Inv.setEscState {s : State} (h : Inv s) (hopen : s.linkState ≠ .idle) (hin : InFrame s) (e : EscState) :
    Inv { s with escState := e } := by
  refine Inv.ofEmptied (h.clearReceive hopen) hopen ?_ h.accepted
  obtain ⟨-, hhead, hpay, htrail⟩ := h.assembler
  refine ⟨fun hb => ?_, hhead, hpay, htrail⟩
  rcases hin with hin | hin | hin <;> simp [hin] at hb

theorem Inv.frameByte {s : State} (h : Inv s) (hopen : s.linkState ≠ .idle) (hin : InFrame s) (b : Byte) :
    Inv (frameByte b s) := by
  have hesc := h.setEscState hopen hin (decodeByte s.escState b).2
  have hempty := hesc.clearReceive hopen
  unfold Machine.frameByte
  dsimp only
  split
  · exact hesc
  · exact hesc.bodyByte hopen _
  · exact hempty.dropFrame hopen (.inl rfl)
  · exact hempty.dropFrame hopen (.inr rfl)
  · exact hempty.dropFrame hopen (.inr rfl)

theorem Inv.receiveByte {s : State} (h : Inv s) (b : Byte) : Inv (receiveByte b s) := by
  by_cases hidle : s.linkState = .idle
  · rwa [Machine.receiveByte, if_pos hidle]
  obtain ⟨hbound, -⟩ := h.assembler
  rw [Machine.receiveByte, if_neg hidle]
  split
  · next hrx =>
    obtain ⟨hesc, hhdr, hlen, hbuf, hcrc, hheld⟩ := hbound (.inl hrx)
    split
    · refine Inv.ofEmptied (h.clearReceive hidle) hidle ?_ (by simp)
      simp [AssemblerOk, hesc, hhdr, hlen, hbuf, hcrc, hheld]
    · exact h
  · next hrx =>
    obtain ⟨-, -, hlen, hbuf, hcrc, hheld⟩ := hbound (.inr hrx)
    split
    · exact h
    · have hstart : Inv { s with rxState := .waitHeader, rxHdr := [], escState := .noesc } :=
        Inv.ofEmptied (h.clearReceive hidle) hidle (by simp [AssemblerOk, hlen, hbuf, hcrc, hheld]) (by simp)
      exact hstart.frameByte hidle (.inl rfl) b
  · next hrx => exact h.frameByte hidle (.inl hrx) b
  · next hrx => exact h.frameByte hidle (.inr (.inl hrx)) b
  · next hrx => exact h.frameByte hidle (.inr (.inr hrx)) b

theorem Inv.receiveBytes {s : State} (h : Inv s) (wire : List Byte) : Inv (receiveBytes wire s) := by
  induction wire generalizing s with
  | nil => exact h
  | cons b bs ih => exact ih (h.receiveByte b)

/-! ### The commands -/

/-- A new transmit entry, at the tail of the queue its reliability names. -/
theorem Inv.enqueue {s : State} (h : Inv s) (hactive : s.linkState = .active) {e : TxEntry}
    (hfits : e.payload.length ≤ Config.maxPayload) : Inv (enqueueSubmit e s) := by
  have happend {P : TxEntry → Prop} {q : List TxEntry} (hold : ∀ x ∈ q, P x) (hnew : P e) : ∀ x ∈ q ++ [e], P x :=
    fun x hx => (List.mem_append.mp hx).elim (hold x) fun hx => List.mem_singleton.mp hx ▸ hnew
  have hidle : s.linkState ≠ .idle := by simp [hactive]
  unfold enqueueSubmit
  split
  · next hrel =>
    have hqueued : Inv { s with pendRelQ := enqTail s.pendRelQ e } :=
      { h with
        pendReliable := happend h.pendReliable hrel
        idleReset := fun hl => absurd hl hidle
        onlyActive := fun hl => absurd hactive hl
        pendRelFit := happend h.pendRelFit hfits }
    exact hqueued.emit _
  · next hrel =>
    have hqueued : Inv { s with pendUnrelQ := enqTail s.pendUnrelQ e } :=
      { h with
        pendUnreliable := happend h.pendUnreliable (by simpa using hrel)
        idleReset := fun hl => absurd hl hidle
        onlyLinkControl := fun hl => absurd hactive hl
        pendUnrelFit := happend h.pendUnrelFit hfits }
    exact hqueued.emit _

theorem Inv.rejectSubmit {s : State} (h : Inv s) (code : ErrCode) (payload : List Byte) (owned : Bool) :
    Inv (rejectSubmit code payload owned s) := by
  unfold Machine.rejectSubmit
  split
  · exact h.emit _
  · exact (h.emit _).emit _

theorem Inv.submitOp {s : State} (h : Inv s) (ptype : PType) (reliable : Bool) (payload : List Byte) (owned : Bool)
    (tag : Nat) : Inv (submitOp ptype reliable payload owned tag s) := by
  unfold Machine.submitOp
  split
  · exact h.rejectSubmit ..
  split
  · exact h.rejectSubmit ..
  next hactive =>
  split
  · exact h.rejectSubmit ..
  split
  · exact h.rejectSubmit ..
  next hfits =>
  obtain ⟨ok, rest, draws, hacquire⟩ := acquire_spec payload.length s
  rw [hacquire]
  cases ok
  · exact (h.setEnvironment _ _ _ _).rejectSubmit ..
  · show Inv (enqueueSubmit _ _)
    refine Inv.enqueue ?_ ?_ ?_
    · exact h.setEnvironment _ _ _ _
    · exact not_not.mp hactive
    · exact not_lt.mp hfits

/-- Taking an entry out leaves the others, in their order. -/
theorem takeEntry_sublist {id : Nat} {q rest : List RxEntry} {e : RxEntry} (h : takeEntry id q = some (e, rest)) :
    rest.Sublist q := by
  induction q generalizing rest with
  | nil => cases h
  | cons f q ih =>
    rw [takeEntry] at h
    split at h
    · cases h; exact List.sublist_cons_self _ _
    · obtain ⟨⟨found, rest'⟩, hrest, heq⟩ := Option.map_eq_some_iff.mp h
      cases heq
      exact (ih hrest).cons_cons f

theorem Inv.releaseOp {s : State} (h : Inv s) (id : Nat) : Inv (releaseOp id s) := by
  unfold Machine.releaseOp
  split
  · exact h.emit _
  next hidle =>
  split
  · exact h.emit _
  · next e rest htake =>
    have hsub := takeEntry_sublist htake
    have hkept : Inv { s with inboundQ := rest } :=
      { h with
        idleReset := fun hl => absurd hl hidle
        onlyActive := fun hl => by
          obtain ⟨hpend, hunack, hin⟩ := h.onlyActive hl
          exact ⟨hpend, hunack, List.eq_nil_of_sublist_nil (hin ▸ hsub)⟩
        inboundFit := fun e he => h.inboundFit e (hsub.subset he)
        inboundIds := h.inboundIds.sublist hsub
        inboundBelow := fun e he => h.inboundBelow e (hsub.subset he) }
    exact (hkept.emit _).emit _

theorem Inv.pullUnreliable {s : State} (h : Inv s) (hidle : s.linkState ≠ .idle) {e : TxEntry} {rest : List TxEntry}
    (hq : s.pendUnrelQ = e :: rest) : Inv (pullUnreliable e rest s) := by
  have htail {P : TxEntry → Prop} (hall : ∀ x ∈ s.pendUnrelQ, P x) : ∀ x ∈ rest, P x := fun x hx =>
    hall x (hq ▸ List.mem_cons_of_mem e hx)
  have hsent : Inv { s.clearAckPending with pendUnrelQ := rest } :=
    { h with
      pendUnreliable := htail h.pendUnreliable
      idleReset := fun hl => absurd hl hidle
      onlyLinkControl := fun hl => htail (h.onlyLinkControl hl)
      pendUnrelFit := htail h.pendUnrelFit }
  rw [Machine.pullUnreliable, releaseTx_eq]
  exact (hsent.setOut _).emit _

/-- The entry sent takes the number after those in flight. -/
theorem SeqsConsecutive.append {next : SeqNum} {q : List TxEntry} (h : SeqsConsecutive next q) (e : TxEntry) :
    SeqsConsecutive (next + 1) (q ++ [{ e with seq := next }]) := by
  rw [SeqsConsecutive, List.map_append, h, List.length_append, List.length_singleton, List.range_succ, List.map_append]
  have hshift (i : Nat) : next + 1 - BitVec.ofNat 3 (q.length + 1) + BitVec.ofNat 3 i =
      next - BitVec.ofNat 3 q.length + BitVec.ofNat 3 i := by
    generalize q.length = n
    bv_omega
  simp only [hshift, List.map_cons, List.map_nil]
  rw [BitVec.sub_add_cancel]

theorem Inv.pullReliable {s : State} (h : Inv s) (hidle : s.linkState ≠ .idle) {e : TxEntry} {rest : List TxEntry}
    (hq : s.pendRelQ = e :: rest) (hwindow : s.unackQ.length < Config.window) : Inv (pullReliable e rest s) := by
  have hactive : s.linkState = .active := by_contra fun hl => by simp [(h.onlyActive hl).1] at hq
  have htail {P : TxEntry → Prop} (hall : ∀ x ∈ s.pendRelQ, P x) : P e ∧ ∀ x ∈ rest, P x :=
    ⟨hall e (by simp [hq]), fun x hx => hall x (hq ▸ List.mem_cons_of_mem e hx)⟩
  have happend {P : TxEntry → Prop} (hold : ∀ x ∈ s.unackQ, P x) (hnew : P { e with seq := s.nextTxSeq }) :
      ∀ x ∈ enqTail s.unackQ { e with seq := s.nextTxSeq }, P x := fun x hx =>
    (List.mem_append.mp hx).elim (hold x) fun hx => List.mem_singleton.mp hx ▸ hnew
  have hsent : Inv
      { s with
        pendRelQ := rest
        nextTxSeq := s.nextTxSeq + 1
        unackQ := enqTail s.unackQ { e with seq := s.nextTxSeq }
        rtxTimerArmed := true
        ackPending := false } :=
    { h with
      window := by simpa [enqTail] using hwindow
      seqs := h.seqs.append e
      unackReliable := happend h.unackReliable (htail h.pendReliable).1
      pendReliable := (htail h.pendReliable).2
      idleReset := fun hl => absurd hl hidle
      onlyActive := fun hl => absurd hactive hl
      rtxTimer := fun _ => .inr hactive
      unackFit := happend h.unackFit (htail h.pendRelFit).1
      pendRelFit := (htail h.pendRelFit).2 }
  exact hsent.setOut _

theorem Inv.pullAckOrNone {s : State} (h : Inv s) (hidle : s.linkState ≠ .idle) : Inv (pullAckOrNone s) := by
  rw [pullAckOrNone_eq]
  split
  · have hsent : Inv { s with ackPending := false } := { h with idleReset := fun hl => absurd hl hidle }
    exact hsent.setOut _
  · exact h.setOut _

theorem Inv.pullOp {s : State} (h : Inv s) : Inv (pullOp s) := by
  unfold Machine.pullOp
  split
  · exact h.emit _
  next hidle =>
  split
  · next hq => exact h.pullUnreliable hidle hq
  split
  · next hq =>
    split
    · next hwindow => exact h.pullReliable hidle hq hwindow
    · exact h.pullAckOrNone hidle
  · exact h.pullAckOrNone hidle

theorem Inv.rtxExpireOp {s : State} (h : Inv s) (harmed : s.rtxTimerArmed = true) : Inv (rtxExpireOp s) := by
  have hback {P : TxEntry → Prop} (hu : ∀ x ∈ s.unackQ, P x) (hp : ∀ x ∈ s.pendRelQ, P x) :
      ∀ x ∈ enqHeadAll s.pendRelQ s.unackQ, P x := fun x hx => (List.mem_append.mp hx).elim (hu x) (hp x)
  exact
    { h with
      window := Nat.zero_le _
      seqs := rfl
      unackReliable := by simp [Machine.rtxExpireOp]
      pendReliable := hback h.unackReliable h.pendReliable
      idleReset := fun hl => by
        rcases h.rtxTimer harmed with hc | hc <;> exact absurd (hc.symm.trans hl) (by decide)
      onlyActive := fun hl => by
        obtain ⟨hpend, hunack, hin⟩ := h.onlyActive hl
        exact ⟨by simp [Machine.rtxExpireOp, enqHeadAll, hpend, hunack], rfl, hin⟩
      rtxTimer := by simp [Machine.rtxExpireOp]
      unackFit := by simp [Machine.rtxExpireOp, PayloadsFit]
      pendRelFit := hback h.unackFit h.pendRelFit }

theorem Inv.lcSend {s : State} (h : Inv s) (hidle : s.linkState ≠ .idle) (m : LcMsg) : Inv (lcSend m s) :=
  h.lcEffect hidle (lcEffect_send m (lcEffect_refl s))

theorem Inv.syncExpireOp {s : State} (h : Inv s) (harmed : s.syncTimerArmed = true) : Inv (syncExpireOp s) := by
  have hsyncing : s.linkState = .syncing := h.syncTimer harmed
  have hidle : s.linkState ≠ .idle := by simp [hsyncing]
  have hcount : Inv (countSyncRetry s) ∧ (countSyncRetry s).linkState = .syncing := by
    unfold countSyncRetry
    split
    · next hlt => exact ⟨{ h with idleReset := fun hl => absurd hl hidle, syncRetry := hlt }, hsyncing⟩
    · exact ⟨{ h.emit (.notify .syncFail) with
        idleReset := fun hl => absurd hl hidle, syncRetry := Nat.zero_le _ }, hsyncing⟩
  obtain ⟨hinv, hlink⟩ := hcount
  obtain ⟨q, rest, draws, events, hsend, -⟩ := lcSend_shape .sync (countSyncRetry s)
  have hsent := hinv.lcSend (by simp [hlink]) .sync
  have hstill : (Machine.lcSend .sync (countSyncRetry s)).linkState = .syncing := by rw [hsend]; exact hlink
  exact
    { hsent with
      idleReset := fun hl => absurd (hstill.symm.trans hl) (by decide)
      syncTimer := fun _ => hstill }

theorem Inv.openOp {s : State} (h : Inv s) : Inv (openOp s) := by
  unfold Machine.openOp
  split
  · have hreset : Inv { s.resetRegs with linkState := .syncing } :=
      { inv_resetRegs s with
        idleReset := fun hl => LinkState.noConfusion hl
        onlyActive := fun _ => ⟨rfl, rfl, rfl⟩
        onlyLinkControl := by simp
        syncTimer := by simp
        rtxTimer := by simp
        crcActive := by simp
        accepted := by simp }
    obtain ⟨q, rest, draws, events, hsend, -⟩ := lcSend_shape .sync { s.resetRegs with linkState := .syncing }
    have hsent := hreset.lcSend (by simp) .sync
    have hlink : (Machine.lcSend .sync { s.resetRegs with linkState := .syncing }).linkState = .syncing := by rw [hsend]
    have harmed : Inv (startSyncTimer (Machine.lcSend .sync { s.resetRegs with linkState := .syncing })) :=
      { hsent with
        idleReset := fun hl => absurd (hlink.symm.trans hl) (by decide)
        syncTimer := fun _ => hlink }
    exact harmed.emit _
  · exact h.emit _

theorem Inv.closeOp {s : State} (h : Inv s) : Inv (closeOp s) := by
  unfold Machine.closeOp
  split
  · exact h.emit _
  · exact (inv_resetRegs _).emit _

/-! ### A step -/

/-- Every instruction is one RX_BYTE run or one command. -/
theorem Inv.exec {s t : State} (h : Inv s) {i : Instr} (hexec : exec i s = .next t) : Inv t := by
  have hrun (wire : List Byte) : Inv (Machine.receiveBytes wire s.begin) := h.begin.receiveBytes wire
  cases i
  case openLink => cases hexec; exact h.begin.openOp
  case closeLink => cases hexec; exact h.begin.closeOp
  case submit => cases hexec; exact h.begin.submitOp ..
  case release => cases hexec; exact h.begin.releaseOp _
  case rxByte => cases hexec; exact h.begin.receiveByte _
  case txPull => cases hexec; exact h.begin.pullOp
  case rtxExpire =>
    rw [Machine.exec, execRtxExpire] at hexec
    split at hexec
    · next harmed => cases hexec; exact h.begin.rtxExpireOp harmed
    · cases hexec
  case syncExpire =>
    rw [Machine.exec, execSyncExpire] at hexec
    split at hexec
    · next harmed => cases hexec; exact h.begin.syncExpireOp harmed
    · cases hexec
  all_goals cases hexec; exact hrun _

/-- Settles O51: a step is an instruction, a hardware reset, or nothing. -/
theorem everyStepKeepsTheInvariant : Obligations.EveryStepKeepsTheInvariant := by
  intro s t h hstep
  cases hsched : s.sched with
  | nil =>
    rw [step_idle hsched] at hstep
    cases hstep
    exact h.begin
  | cons input rest =>
    cases input with
    | hardwareReset =>
      rw [step_hardwareReset hsched] at hstep
      cases hstep
      exact inv_resetRegs _
    | request r =>
      cases hdec : decode r with
      | ok i =>
        rw [step_of_decode_ok hsched hdec] at hstep
        exact (h.setEnvironment rest _ _ _).exec hstep
      | error why =>
        rw [step_of_decode_error hsched hdec] at hstep
        cases hstep

end Sys2Proof.Machine
end

section
/-! PROOF. The Byte Codec's encoder (40_byte_codec R91 to R93): what the escaped body holds, and O8 from this; the body of a built
frame as its header, payload and trailer, and O28. -/

namespace Sys2Proof.Machine

/-! ### The escaped body -/

theorem escBody_eq_flatMap (sw : Bool) (body : List Byte) : escBody sw body = body.flatMap (escMap sw) := by
  induction body with
  | nil => rfl
  | cons b bs ih => rw [escBody, ih, List.flatMap_cons]

theorem delimByte_not_mem_escMap (sw : Bool) (b : Byte) : Config.delimByte ∉ escMap sw b := by
  rcases escMap_cases sw b with ⟨hwire, hdelim, -⟩ | ⟨c, hwire, hdelim, -⟩ <;> rw [hwire]
  · simpa using hdelim.symm
  · simpa using ⟨by decide, hdelim.symm⟩

theorem flowBytes_not_mem_escMap (b : Byte) : xonByte ∉ escMap true b ∧ xoffByte ∉ escMap true b := by
  revert b; decide

theorem not_mem_escBody {sw : Bool} {x : Byte} (h : ∀ b, x ∉ escMap sw b) (body : List Byte) : x ∉ escBody sw body := by
  rw [escBody_eq_flatMap, List.mem_flatMap]
  rintro ⟨b, -, hx⟩
  exact h b hx

/-- One more byte for each byte that is escaped (R93). -/
theorem length_escBody (sw : Bool) (body : List Byte) :
    (escBody sw body).length = body.length + (body.filter fun b => (escMap sw b).length == 2).length := by
  induction body with
  | nil => rfl
  | cons b bs ih =>
    rw [escBody, List.length_append, ih]
    rcases escMap_cases sw b with ⟨hwire, -⟩ | ⟨c, hwire, -⟩ <;> simp [hwire] <;> omega

/-! ### Every escape byte starts a code -/

/-- The second bytes of the four codes (R92). -/
def escapeCodes : List Byte := [codeDelim, codeEsc, codeXon, codeXoff]

/-- Every escape byte of a wire form is followed by one of the four codes. -/
def EscapesPaired (wire : List Byte) : Prop :=
  ∀ front back, wire = front ++ Config.escByte :: back → ∃ c tail, back = c :: tail ∧ c ∈ escapeCodes

theorem EscapesPaired.cons {b : Byte} {wire : List Byte} (hb : b ≠ Config.escByte) (h : EscapesPaired wire) :
    EscapesPaired (b :: wire) := by
  intro front back heq
  cases front with
  | nil => exact absurd (List.cons.inj heq).1 hb
  | cons _ front => exact h front back (List.cons.inj heq).2

theorem EscapesPaired.code {c : Byte} {wire : List Byte} (hc : c ∈ escapeCodes) (h : EscapesPaired wire) :
    EscapesPaired (Config.escByte :: c :: wire) := by
  have hne : c ≠ Config.escByte := by rintro rfl; exact absurd hc (by decide)
  intro front back heq
  cases front with
  | nil => exact ⟨c, wire, (List.cons.inj heq).2.symm, hc⟩
  | cons _ front => exact h.cons hne front back (List.cons.inj heq).2

theorem mem_escapeCodes_of_unescape {c b : Byte} (h : unescape c = .byte b) : c ∈ escapeCodes := by
  by_contra hc
  simp only [escapeCodes, List.mem_cons, List.not_mem_nil, or_false, not_or] at hc
  obtain ⟨h1, h2, h3, h4⟩ := hc
  rw [unescape, if_neg h1, if_neg h2, if_neg h3, if_neg h4] at h
  split at h <;> cases h

theorem EscapesPaired.escBody_append {wire : List Byte} (h : EscapesPaired wire) (sw : Bool) (body : List Byte) :
    EscapesPaired (escBody sw body ++ wire) := by
  induction body with
  | nil => exact h
  | cons b bs ih =>
    rw [escBody, List.append_assoc]
    rcases escMap_cases sw b with ⟨hwire, -, hesc⟩ | ⟨c, hwire, -, hcode⟩ <;> rw [hwire]
    · exact ih.cons hesc
    · exact ih.code (mem_escapeCodes_of_unescape hcode)

theorem encodeFrame_escapesPaired (sw : Bool) (body : List Byte) : EscapesPaired (encodeFrame sw body) := by
  have hclosing : EscapesPaired [Config.delimByte] := by
    refine EscapesPaired.cons (by decide) ?_
    intro front back heq
    simp at heq
  rw [encodeFrame, List.append_assoc]
  exact (hclosing.escBody_append sw body).cons (by decide)

/-- Settles O8, item by item; injectivity because the decoder gives the body back. -/
theorem encodedFrameShape : Obligations.EncodedFrameShape := by
  intro sw body
  refine ⟨⟨escBody sw body, rfl, not_mem_escBody (delimByte_not_mem_escMap sw) body⟩,
    encodeFrame_escapesPaired sw body, ?_, ?_, fun body' heq => ?_⟩
  · rintro rfl
    have hxon := not_mem_escBody (fun b => (flowBytes_not_mem_escMap b).1) body
    have hxoff := not_mem_escBody (fun b => (flowBytes_not_mem_escMap b).2) body
    simp only [encodeFrame, List.mem_append, List.mem_singleton]
    exact ⟨by rintro ((h | h) | h); exacts [absurd h (by decide), hxon h, absurd h (by decide)],
      by rintro ((h | h) | h); exacts [absurd h (by decide), hxoff h, absurd h (by decide)]⟩
  · simp only [encodeFrame, List.length_append, List.length_singleton, length_escBody]
    omega
  · have hdec := decodingUndoesEncoding sw body
    rw [heq, decodingUndoesEncoding sw body'] at hdec
    exact (Option.some.inj hdec).symm

/-! ### The body of a built frame -/

/-- The header FRAME_BUILD gives a frame (R139). -/
def builtHeader (ack : SeqNum) (crc : Bool) (ptype : PType) (rel : Bool) (seq : SeqNum) (payload : List Byte) : HdrFields where
  seq := seq
  ack := ack
  crcPresent := crc
  reliable := rel
  len := BitVec.ofNat 12 payload.length
  checksum := hdrChecksum (hdrByte0 seq ack crc rel) (hdrByte1 ptype (BitVec.ofNat 12 payload.length))
    (hdrByte2 (BitVec.ofNat 12 payload.length))

/-- A built body is a header, the payload, and the trailer that the receiver's check wants. -/
theorem frameBody_eq (ack : SeqNum) (crc : Bool) (ptype : PType) (rel : Bool) (seq : SeqNum) (payload : List Byte) :
    frameBody ack crc ptype rel seq payload =
      hdrBytes ptype (builtHeader ack crc ptype rel seq payload) ++
        frameRest ptype (builtHeader ack crc ptype rel seq payload) payload := by
  cases crc <;> simp [frameBody, frameRest, builtHeader, hdrBuild, hdrBytes]

theorem builtHeader_checksum (ack : SeqNum) (crc : Bool) (ptype : PType) (rel : Bool) (seq : SeqNum) (payload : List Byte) :
    (builtHeader ack crc ptype rel seq payload).checksum =
      rightChecksum ptype (builtHeader ack crc ptype rel seq payload) := rfl

theorem toNat_length {payload : List Byte} (h : payload.length ≤ Config.maxPayload) :
    (BitVec.ofNat 12 payload.length).toNat = payload.length := by
  rw [BitVec.toNat_ofNat]
  exact Nat.mod_eq_of_lt (Nat.lt_succ_of_le h)

/-- Settles O28. -/
theorem builtFrameHoldsItsFields : Obligations.BuiltFrameHoldsItsFields := by
  intro s ptype rel seq payload hfits
  refine ⟨(builtHeader s.expectedRxSeq s.crcTxEnable ptype rel seq payload).checksum,
    frameBody s.expectedRxSeq s.crcTxEnable ptype rel seq payload, rfl, ?_⟩
  rw [frameBody_eq, checksumOk_hdrBytes, hdrType_hdrBytes, hdrFields_hdrBytes]
  exact ⟨beq_iff_eq.mpr (builtHeader_checksum ..), rfl, rfl, toNat_length hfits, rfl⟩

end Sys2Proof.Machine
end

section
/-! PROOF. The byte codes and RX_BYTE (40_byte_codec R95 to R104, 41_receive_assembler R105 to R111): every wire code is its bytes
received in order; what a delimiter, an invalid escape and a body byte do in each receive state. O10 to O13, O21. -/

namespace Sys2Proof.Machine

/-! ### Wire codes are their bytes -/

theorem exec_of_wireBytes {i : Instr} {wire : List Byte} (h : wireBytes i = some wire) (s : State) :
    exec i s = .next (receiveBytes wire s.begin) := by
  cases i <;> cases h <;> rfl

/-- Settles O13. -/
theorem wireCodesAreRxBytes : Obligations.WireCodesAreRxBytes := by
  intro i wire s h
  rw [exec_of_wireBytes h, runOps_rxByte]

/-! ### A delimiter -/

/-- A delimiter abandons the frame, also as the second byte of an escape (R111). -/
theorem receiveByte_delim_inFrame {s : State} (hopen : s.linkState ≠ .idle) (hin : InFrame s) :
    receiveByte Config.delimByte s = dropFrame .framingError .waitFrameStart { s with escState := .noesc } := by
  have hesc : ¬ Config.delimByte = codeDelim ∧ ¬ Config.delimByte = codeEsc ∧ ¬ Config.delimByte = codeXon ∧
    ¬ Config.delimByte = codeXoff := by decide
  rw [receiveByte_inFrame _ _ hopen hin]
  cases he : s.escState <;> simp [frameByte, decodeByte, he, unescape, hesc]

/-- Settles O10. -/
theorem delimFollowsReceiveState : Obligations.DelimFollowsReceiveState := by
  intro s hopen
  rw [exec_of_wireBytes rfl]
  have hbyte : receiveBytes [0xC0] s.begin = receiveByte Config.delimByte s.begin := rfl
  rw [hbyte]
  refine ⟨fun hrx => ?_, fun hrx => ?_, fun hin => ?_⟩
  · rw [receive_delim s.begin hopen (.inl hrx)]
    rfl
  · rw [receive_delim s.begin hopen (.inr hrx), ← hrx]
    rfl
  · rw [receiveByte_delim_inFrame (s := s.begin) hopen hin, dropFrame_eq]
    rfl

/-! ### The first byte of a frame -/

theorem receiveByte_frameStart {s : State} (hopen : s.linkState ≠ .idle) (hrx : s.rxState = .waitFrameStart) {b : Byte}
    (hb : b ≠ Config.delimByte) : receiveByte b s = receiveByte b (frameOpen s) := by
  rw [receiveByte_inFrame b (frameOpen s) hopen (.inl rfl)]
  simp [receiveByte, hopen, hrx, hb, frameOpen]

/-! ### Invalid escapes -/

theorem unescape_error {x : Byte} (hx : x ∉ escapeSecondBytes) : unescape x = .error := by
  simp only [escapeSecondBytes, List.mem_cons, List.not_mem_nil, or_false, not_or] at hx
  obtain ⟨h1, h2, h3, h4, h5⟩ := hx
  simp [unescape, h1, h2, h3, h4, h5]

/-- The second byte of an escape that is no code: the frame is dropped (R98, R111). -/
theorem receiveByte_invalid {s : State} (hopen : s.linkState ≠ .idle) (hin : InFrame s) (hesc : s.escState = .esc)
    {x : Byte} (hx : x ∉ escapeSecondBytes) :
    receiveByte x s = dropFrame .framingError .waitDelimiter { s with escState := .noesc } := by
  rw [receiveByte_inFrame _ _ hopen hin]
  simp [frameByte, decodeByte, hesc, unescape_error hx]

/-- An escape byte inside a frame and outside an escape begins one (R96). -/
theorem receiveByte_esc {s : State} (hopen : s.linkState ≠ .idle) (hin : InFrame s) (hesc : s.escState = .noesc) :
    receiveByte Config.escByte s = { s with escState := .esc } := by
  have hd : ¬ Config.escByte = Config.delimByte := by decide
  rw [receiveByte_inFrame _ _ hopen hin]
  simp [frameByte, decodeByte, hesc, hd]

theorem dropFrame_setEscState (code : ErrCode) (target : RxState) (s : State) (e : EscState) :
    dropFrame code target { s with escState := e } = dropFrame code target s := by
  simp only [dropFrame_eq, heldEvents]

theorem linkState_dropFrame (code : ErrCode) (target : RxState) (s : State) :
    (dropFrame code target s).linkState = s.linkState := by rw [dropFrame_eq]

theorem rxState_dropFrame (code : ErrCode) (target : RxState) (s : State) :
    (dropFrame code target s).rxState = target := by rw [dropFrame_eq]

/-- Escape byte and invalid code inside a frame: outside an escape the second byte drops the frame; inside one the first already
did, and the second is skipped, a delimiter aside (R98, R99, R111). -/
theorem receive_invalidEscape {s : State} (hopen : s.linkState ≠ .idle) (hin : InFrame s) :
    (∀ x, x ∉ escapeSecondBytes →
      receiveBytes [Config.escByte, x] s = dropFrame .framingError .waitDelimiter s) ∧
    receiveBytes [Config.escByte, Config.delimByte] s = dropFrame .framingError .waitFrameStart s := by
  simp only [receiveBytes]
  cases hesc : s.escState with
  | noesc =>
    rw [receiveByte_esc hopen hin hesc]
    refine ⟨fun x hx => ?_, ?_⟩
    · rw [receiveByte_invalid (by exact hopen) (by exact hin) rfl hx, dropFrame_setEscState, dropFrame_setEscState]
    · rw [receiveByte_delim_inFrame (by exact hopen) (by exact hin), dropFrame_setEscState, dropFrame_setEscState]
  | esc =>
    have hdropped : (dropFrame .framingError .waitDelimiter s).linkState ≠ .idle := by rwa [linkState_dropFrame]
    have hwait := rxState_dropFrame .framingError .waitDelimiter s
    rw [receiveByte_invalid hopen hin hesc (by decide), dropFrame_setEscState]
    refine ⟨fun x hx => receiveByte_skip _ _ hwait ?_, ?_⟩
    · rintro rfl
      exact hx (by decide)
    · rw [receive_delim _ hdropped (.inl hwait), dropFrame_eq, dropFrame_eq]

/-- The same as the first bytes of a frame (R109). -/
theorem receive_invalidEscape_frameStart {s : State} (hopen : s.linkState ≠ .idle) (hrx : s.rxState = .waitFrameStart) :
    (∀ x, x ∉ escapeSecondBytes →
      receiveBytes [Config.escByte, x] s = dropFrame .framingError .waitDelimiter s) ∧
    receiveBytes [Config.escByte, Config.delimByte] s = dropFrame .framingError .waitFrameStart s := by
  have hfirst (x : Byte) : receiveBytes [Config.escByte, x] s = receiveBytes [Config.escByte, x] (frameOpen s) := by
    rw [receiveBytes, receiveByte_frameStart hopen hrx (by decide)]
    rfl
  have hdrop (target : RxState) : dropFrame .framingError target (frameOpen s) = dropFrame .framingError target s := by
    simp only [dropFrame_eq, frameOpen, heldEvents]
  obtain ⟨hinvalid, hdelim⟩ := receive_invalidEscape (s := frameOpen s) hopen (.inl rfl)
  refine ⟨fun x hx => ?_, ?_⟩
  · rw [hfirst, hinvalid x hx, hdrop]
  · rw [hfirst, hdelim, hdrop]

/-- Settles O11. -/
theorem invalidEscapesAbandonTheFrame : Obligations.InvalidEscapesAbandonTheFrame := by
  intro x s hwf hopen
  have hx : x ∉ escapeSecondBytes := by simpa [Instr.wf] using hwf
  have hxdelim : x ≠ Config.delimByte := by rintro rfl; exact hx (by decide)
  rw [exec_of_wireBytes (i := .escInvalid x) rfl, exec_of_wireBytes (i := .escThenDelim) rfl]
  refine ⟨fun hrx => ⟨?_, ?_⟩, fun hrx => ?_⟩
  · rw [receiveBytes, receiveByte_skip _ s.begin hrx (by decide), receiveBytes, receiveByte_skip _ s.begin hrx hxdelim]
    rfl
  · rw [receiveBytes, receiveByte_skip _ s.begin hrx (by decide), receiveBytes]
    exact congrArg _ (receive_delim s.begin hopen (.inl hrx))
  · have hboth : (∀ x, x ∉ escapeSecondBytes →
          receiveBytes [Config.escByte, x] s.begin = dropFrame .framingError .waitDelimiter s.begin) ∧
        receiveBytes [Config.escByte, Config.delimByte] s.begin = dropFrame .framingError .waitFrameStart s.begin := by
      by_cases hstart : s.rxState = .waitFrameStart
      · exact receive_invalidEscape_frameStart hopen hstart
      · refine receive_invalidEscape hopen ?_
        cases h : s.rxState <;> simp_all [InFrame]
    obtain ⟨hinvalid, hdelim⟩ := hboth
    constructor
    · refine congrArg _ ((hinvalid x hx).trans ?_)
      rw [dropFrame_eq]
      rfl
    · refine congrArg _ (hdelim.trans ?_)
      rw [dropFrame_eq]
      rfl

/-! ### Body bytes -/

/-- Each of the five codes is the wire form of its byte, under one of the two flow settings. -/
theorem bodyCodes_escMap {b v : Byte} {i : Instr} (hm : (i, v) ∈ bodyCodes b) (hwf : i.wf = true) :
    ∃ sw, wireBytes i = some (escMap sw v) := by
  simp only [bodyCodes, List.mem_cons, Prod.mk.injEq, List.not_mem_nil, or_false] at hm
  rcases hm with ⟨rfl, rfl⟩ | ⟨rfl, rfl⟩ | ⟨rfl, rfl⟩ | ⟨rfl, rfl⟩ | ⟨rfl, rfl⟩
  · exact ⟨true, rfl⟩
  · exact ⟨true, rfl⟩
  · exact ⟨true, rfl⟩
  · exact ⟨true, rfl⟩
  · refine ⟨false, ?_⟩
    simp only [Instr.wf, Bool.and_eq_true, bne_iff_ne] at hwf
    simp [wireBytes, escMap, hwf]

/-- While a delimiter is awaited, a body byte is discarded, in or out of an escape (R108). -/
theorem receive_escMap_skip (sw : Bool) (b : Byte) {s : State} (hrx : s.rxState = .waitDelimiter) :
    receiveBytes (escMap sw b) s = s := by
  have hskip {x : Byte} (hx : x ∈ escMap sw b) : receiveByte x s = s :=
    receiveByte_skip x s hrx fun h => delimByte_not_mem_escMap sw b (h ▸ hx)
  rcases escMap_cases sw b with ⟨hwire, -⟩ | ⟨c, hwire, -⟩ <;> rw [hwire] at hskip ⊢
  · simp [receiveBytes, hskip]
  · simp [receiveBytes, hskip]

theorem bodyByte_header {s : State} (hrx : s.rxState = .waitHeader) {v : Byte} (hlen : s.rxHdr.length + 1 < 4) :
    bodyByte v s = { s with rxHdr := s.rxHdr ++ [v] } := by
  simp only [bodyByte, hrx, headerByte, List.length_append, List.length_singleton, Config.hdrLen]
  exact if_neg (by omega)

theorem bodyByte_payload {s : State} (hrx : s.rxState = .waitPayload) {v : Byte}
    (hlen : s.rxBuf.length + 1 < s.rxLen.toNat) : bodyByte v s = { s with rxBuf := s.rxBuf ++ [v] } := by
  simp only [bodyByte, hrx, payloadByte, List.length_append, List.length_singleton]
  exact if_neg (by omega)

theorem bodyByte_trailer {s : State} (hrx : s.rxState = .waitCrc) {v : Byte} (hcrc : s.rxCrc = []) :
    bodyByte v s = { s with rxCrc := [v] } := by
  simp [bodyByte, hrx, crcTrailerByte, hcrc, Config.crcLen]

/-- Settles O12. -/
theorem bodyCodesStoreTheirByte : Obligations.BodyCodesStoreTheirByte := by
  intro b i v s hm hwf hopen
  obtain ⟨sw, hwire⟩ := bodyCodes_escMap hm hwf
  rw [exec_of_wireBytes hwire]
  refine ⟨fun hrx => ?_, fun hrx => ?_, fun hesc => ?_⟩
  · rw [receive_escMap_skip sw v (s := s.begin) hrx]
    rfl
  · rw [receive_firstByte sw v s.begin hopen hrx, bodyByte_header rfl (by simp [frameOpen])]
    rfl
  · have hbody (hin : InFrame s) : receiveBytes (escMap sw v) s.begin = bodyByte v s.begin :=
      frame_escMap sw v s.begin hopen hesc hin
    refine ⟨fun hin => ?_, fun hrx hlen => ?_, fun hrx hlen => ?_, fun hrx hcrc => ?_⟩
    · rw [hbody hin]
      rfl
    · rw [hbody (.inl hrx), bodyByte_header (s := s.begin) hrx hlen]
      rfl
    · rw [hbody (.inr (.inl hrx)), bodyByte_payload (s := s.begin) hrx hlen]
      rfl
    · rw [hbody (.inr (.inr hrx)), bodyByte_trailer (s := s.begin) hrx hcrc]
      rfl

/-! ### A frame inside another -/

/-- A second delimiter changes nothing (R108, R109, R111). -/
theorem receiveByte_delim_twice {s : State} (hopen : s.linkState ≠ .idle) (hin : InFrame s) :
    receiveByte Config.delimByte (receiveByte Config.delimByte s) = receiveByte Config.delimByte s := by
  have hrx : (receiveByte Config.delimByte s).rxState = .waitFrameStart := by
    rw [receiveByte_delim_inFrame hopen hin, rxState_dropFrame]
  have hlink : (receiveByte Config.delimByte s).linkState ≠ .idle := by
    rw [receiveByte_delim_inFrame hopen hin, linkState_dropFrame]
    exact hopen
  rw [receive_delim _ hlink (.inr hrx), ← hrx]

theorem runOps_two_wires {i j : Instr} {wire wire' : List Byte} (hi : wireBytes i = some wire)
    (hj : wireBytes j = some wire') (s : State) : runOps [i, j] s = .next (receiveBytes (wire ++ wire') s.begin) := by
  have hout := outputOnly_receiveBytes wire' (receiveBytes wire s.begin).begin (receiveBytes wire s.begin).out
  simp only [begin_out, List.append_nil] at hout
  rw [receiveBytes_append]
  simp only [runOps, exec_of_wireBytes hi, exec_of_wireBytes hj, begin_out, List.append_nil]
  refine congrArg _ (Eq.trans ?_ hout.symm)
  rfl

/-- Settles O21. -/
theorem frameAbandonsTheOneBefore : Obligations.FrameAbandonsTheOneBefore := by
  intro i s hstart _ hin hopen
  obtain ⟨wire, hwire, hhead⟩ := Option.bind_eq_some_iff.mp hstart
  obtain ⟨rest, rfl⟩ : ∃ rest, wire = Config.delimByte :: rest := List.head?_eq_some_iff.mp hhead
  rw [exec_of_wireBytes hwire, runOps_two_wires (i := .delim) rfl hwire]
  refine congrArg _ ?_
  show _ = receiveBytes rest (receiveByte Config.delimByte (receiveByte Config.delimByte s.begin))
  rw [receiveByte_delim_twice (s := s.begin) hopen hin]
  rfl

end Sys2Proof.Machine
end

section
/-! PROOF. The four header checks and the frames that pass them (41_receive_assembler R112 to R124), each outcome once; O15 to O20. -/

namespace Sys2Proof.Machine

/-! ### The fourth header byte -/

/-- R113: before ACTIVE only link-control frames are taken. -/
abbrev Gate (s : State) : Prop := hdrType s.rxHdr = ptLinkControl ∨ s.linkState = .active

/-- R114: a reliable frame carries the expected number. -/
abbrev InSequence (s : State) : Prop := (hdrFields s.rxHdr).reliable = true → (hdrFields s.rxHdr).seq = s.expectedRxSeq

section
variable {s : State}

theorem headerComplete_badChecksum (h : checksumOk s.rxHdr = false) :
    headerComplete s = dropFrame .headerChecksumError .waitDelimiter s := by
  simp [headerComplete, h]

theorem headerComplete_notActive (hsum : checksumOk s.rxHdr = true) (hgate : ¬ Gate s) :
    headerComplete s = dropFrame .linkNotActive .waitDelimiter s := by
  simp [headerComplete, hsum, not_or.mp hgate]

theorem headerComplete_outOfOrder (hsum : checksumOk s.rxHdr = true) (hgate : Gate s) (hseq : ¬ InSequence s) :
    headerComplete s = dropFrame .outOfOrderSequence .waitDelimiter s := by
  have hpassed : ¬ (hdrType s.rxHdr ≠ ptLinkControl ∧ s.linkState ≠ .active) := by
    rw [← not_or]
    exact not_not.mpr hgate
  rw [headerComplete, hsum, if_neg (by simp), if_neg hpassed, if_pos (Classical.not_imp.mp hseq)]

/-- The state after the buffer of a received frame was asked for (R115). -/
def asked (answers : List Bool) (s : State) : State :=
  { s with
    poolAnswers := answers
    out := s.out ++ [.pool (.acquire ((hdrFields s.rxHdr).len.toNat + Config.hdrLen) s.params.headerReserve)] }

theorem headerComplete_asks (hsum : checksumOk s.rxHdr = true) (hgate : Gate s) (hseq : InSequence s) {ok : Bool}
    {answers : List Bool} (hpool : s.poolAnswers = ok :: answers) :
    headerComplete s =
      if ok then headerAccepted (hdrFields s.rxHdr).len (asked answers s)
      else dropFrame .allocationFailure .waitDelimiter (asked answers s) := by
  have hpassed : ¬ (hdrType s.rxHdr ≠ ptLinkControl ∧ s.linkState ≠ .active) := by
    rw [← not_or]
    exact not_not.mpr hgate
  have hnumber : ¬ ((hdrFields s.rxHdr).reliable = true ∧ (hdrFields s.rxHdr).seq ≠ s.expectedRxSeq) :=
    fun ⟨hrel, hne⟩ => hne (hseq hrel)
  simp only [headerComplete, hsum, Bool.not_true, Bool.false_eq_true, if_false, if_neg hpassed, if_neg hnumber]
  rw [acquire_answered _ _ _ _ hpool]
  cases ok <;> rfl

theorem headerComplete_refused (hsum : checksumOk s.rxHdr = true) (hgate : Gate s) (hseq : InSequence s)
    {answers : List Bool} (hpool : s.poolAnswers = false :: answers) :
    headerComplete s = dropFrame .allocationFailure .waitDelimiter (asked answers s) :=
  headerComplete_asks hsum hgate hseq hpool

theorem headerComplete_accepts (hsum : checksumOk s.rxHdr = true) (hgate : Gate s) (hseq : InSequence s)
    {answers : List Bool} (hpool : s.poolAnswers = true :: answers) :
    headerComplete s = headerAccepted (hdrFields s.rxHdr).len (asked answers s) :=
  headerComplete_asks hsum hgate hseq hpool

end

/-- An accepted header whose body is not empty, or has a trailer: the next byte of it is awaited (R116, R118). -/
theorem headerAccepted_awaits {s : State} (hbody : (hdrFields s.rxHdr).len ≠ 0 ∨ (hdrFields s.rxHdr).crcPresent = true)
    (hcrc : s.rxCrc = []) :
    headerAccepted (hdrFields s.rxHdr).len s =
      { s with
        rxState := if (hdrFields s.rxHdr).len ≠ 0 then .waitPayload else .waitCrc
        rxLen := (hdrFields s.rxHdr).len
        rxHeld := true
        rxBuf := [] } := by
  unfold headerAccepted
  dsimp only
  split
  · next hlen =>
    have hpresent := hbody.resolve_left (not_not.mpr hlen)
    simp [payloadComplete, hpresent, hcrc, hlen]
  · rfl

/-! ### Header rows -/

theorem hdrBytes_read (ptype : PType) (h : HdrFields) :
    hdrType (hdrBytes ptype h) = ptype ∧ hdrFields (hdrBytes ptype h) = h ∧
    checksumOk (hdrBytes ptype h) = (h.checksum == rightChecksum ptype h) := by
  have htype := hdrType_hdrBytes ptype h []
  have hfields := hdrFields_hdrBytes ptype h []
  have hsum := checksumOk_hdrBytes ptype h []
  rw [List.append_nil] at htype hfields hsum
  exact ⟨htype, hfields, hsum⟩

/-- The state at the fourth header byte of a row that arrives between two frames. -/
def atHeader (ptype : PType) (h : HdrFields) (s : State) : State :=
  { frameOpen s.begin with rxHdr := hdrBytes ptype h }

theorem receiveFrame_eq_feed {ptype : PType} {h : HdrFields} {rest : List Byte} {i : Instr}
    (hm : (ptype, i) ∈ allFrames h rest) {s : State} (hopen : s.linkState ≠ .idle) (hboundary : AtBoundary s) :
    exec i s = .next (feed (hdrBytes ptype h ++ rest) (frameOpen s.begin)) := by
  rw [allFrames_exec hm, receiveFrame, receiveStep, openFrame, receive_hdrBytes false ptype h rest s.begin hopen hboundary]

/-- A header row arriving between two frames: its header, then the rest of its bytes. -/
theorem receiveFrame_eq {ptype : PType} {h : HdrFields} {rest : List Byte} {i : Instr}
    (hm : (ptype, i) ∈ allFrames h rest) {s : State} (hopen : s.linkState ≠ .idle) (hboundary : AtBoundary s) :
    exec i s = .next (feed rest (headerComplete (atHeader ptype h s))) := by
  rw [receiveFrame_eq_feed hm hopen hboundary, feed_append]
  exact congrArg (fun t => Host.Outcome.next (feed rest t)) (feed_header _ _ _ _ (frameOpen s.begin) rfl rfl)

/-- A header row whose header is dropped: the rest of the frame is skipped. -/
theorem receiveFrame_dropped {ptype : PType} {h : HdrFields} {rest : List Byte} {i : Instr}
    (hm : (ptype, i) ∈ allFrames h rest) {s t : State} (hopen : s.linkState ≠ .idle) (hboundary : AtBoundary s)
    {code : ErrCode} (hdrop : headerComplete (atHeader ptype h s) = dropFrame code .waitDelimiter t) :
    exec i s = .next (dropFrame code .waitDelimiter t) := by
  rw [receiveFrame_eq hm hopen hboundary, hdrop, feed_skip _ _ (rxState_dropFrame ..)]

/-- What a drop leaves when the assembler stood between two frames before this one. -/
theorem dropFrame_atHeader (code : ErrCode) (ptype : PType) (h : HdrFields) {s : State} (hinv : Inv s)
    (hboundary : AtBoundary s) (answers : List Bool) (events : List Event) :
    dropFrame code .waitDelimiter { atHeader ptype h s with poolAnswers := answers, out := events } =
      { s with rxState := .waitDelimiter, poolAnswers := answers, out := events ++ [.diag code] } := by
  obtain ⟨hesc, hhdr, hlen, hbuf, hcrc, hheld⟩ := hinv.assembler.1 hboundary
  simp [dropFrame_eq, atHeader, frameOpen, State.begin, heldEvents, hesc, hhdr, hlen, hbuf, hcrc, hheld]

theorem asked_atHeader (ptype : PType) (h : HdrFields) (answers : List Bool) (s : State) :
    asked answers (atHeader ptype h s) =
      { atHeader ptype h s with
        poolAnswers := answers
        out := [.pool (.acquire (h.len.toNat + 4) s.params.headerReserve)] } := by
  obtain ⟨-, hfields, -⟩ := hdrBytes_read ptype h
  simp [asked, atHeader, frameOpen, State.begin, hfields, Config.hdrLen]

/-- Settles O16. -/
theorem headerChecksDropInOrder : Obligations.HeaderChecksDropInOrder := by
  intro h rest ptype i s hm hinv hopen hboundary
  obtain ⟨htype, hfields, hsum⟩ := hdrBytes_read ptype h
  have hleaves (code : ErrCode) := dropFrame_atHeader code ptype h hinv hboundary s.poolAnswers []
  have hright (hk : h.checksum = rightChecksum ptype h) : checksumOk (atHeader ptype h s).rxHdr = true :=
    hsum.trans (beq_iff_eq.mpr hk)
  have hgate (hg : ptype = 15 ∨ s.linkState = .active) : Gate (atHeader ptype h s) := hg.imp_left htype.trans
  refine ⟨fun hk => ?_, fun hk hp hl => ?_, fun hk hg hr hq => ?_, fun hk hg hq answers hpool => ?_⟩
  · have hwrong : checksumOk (atHeader ptype h s).rxHdr = false := hsum.trans (beq_eq_false_iff_ne.mpr hk)
    exact (receiveFrame_dropped hm hopen hboundary (headerComplete_badChecksum hwrong)).trans (congrArg _ (hleaves _))
  · have hclosed : ¬ Gate (atHeader ptype h s) := by
      rintro (hlc | hactive)
      · exact hp (htype.symm.trans hlc)
      · exact hl hactive
    exact (receiveFrame_dropped hm hopen hboundary (headerComplete_notActive (hright hk) hclosed)).trans
      (congrArg _ (hleaves _))
  · have hother : ¬ InSequence (atHeader ptype h s) := by
      simp only [InSequence, atHeader, hfields]
      exact fun hin => hq (hin hr)
    exact (receiveFrame_dropped hm hopen hboundary (headerComplete_outOfOrder (hright hk) (hgate hg) hother)).trans
      (congrArg _ (hleaves _))
  · have hin : InSequence (atHeader ptype h s) := by
      simp only [InSequence, atHeader, hfields]
      exact hq
    have hrefused := headerComplete_refused (s := atHeader ptype h s) (hright hk) (hgate hg) hin hpool
    refine (receiveFrame_dropped hm hopen hboundary hrefused).trans (congrArg _ ?_)
    rw [asked_atHeader, dropFrame_atHeader _ ptype h hinv hboundary]
    rfl

/-- Settles O15. -/
theorem acceptedHeaderAwaitsItsBody : Obligations.AcceptedHeaderAwaitsItsBody := by
  intro h ptype i answers s hm hpass hbody
  obtain ⟨htype, hfields, hsum⟩ := hdrBytes_read ptype h
  obtain ⟨hesc, -, -, hbuf, hcrc, -⟩ := hpass.inv.assembler.1 hpass.boundary
  have hright : checksumOk (atHeader ptype h s).rxHdr = true := hsum.trans (beq_iff_eq.mpr hpass.checksum)
  have hgate : Gate (atHeader ptype h s) := by
    by_cases hlc : ptype = ptLinkControl
    · exact .inl (htype.trans hlc)
    · exact .inr (hpass.gate hlc)
  have hin : InSequence (atHeader ptype h s) := by
    simp only [InSequence, atHeader, hfields]
    exact hpass.sequence
  rw [receiveFrame_eq hm hpass.isOpen hpass.boundary, feed_nil,
    headerComplete_accepts (s := atHeader ptype h s) hright hgate hin hpass.pool, asked_atHeader]
  have hawaits := headerAccepted_awaits
    (s := { atHeader ptype h s with
      poolAnswers := answers
      out := [.pool (.acquire (h.len.toNat + 4) s.params.headerReserve)] })
    (by simpa only [atHeader, hfields] using hbody) hcrc
  simp only [atHeader, hfields] at hawaits ⊢
  refine congrArg _ (hawaits.trans ?_)
  simp [frameOpen, State.begin, hesc, hbuf]

/-- Settles O17: the trailer is read after the whole payload, and only the receive registers are written until then. -/
theorem crcMismatchDropsTheFrame : Obligations.CrcMismatchDropsTheFrame := by
  intro h payload t0 t1 ptype i answers s hm hpass hpresent hwrong
  obtain ⟨-, hfields, -⟩ := hdrBytes_read ptype h
  obtain ⟨hesc, hhdr, hlen, hbuf, hcrc, hheld⟩ := hpass.inv.assembler.1 hpass.boundary
  rw [receiveFrame_eq_feed hm hpass.isOpen hpass.boundary, ← List.append_assoc, feed_append,
    feed_accepted ptype h payload (frameOpen s.begin) rfl rfl hpass.checksum hpass.gate hpass.sequence hpass.len answers
      hpass.pool]
  simp only [payloadComplete, hfields, hpresent, if_true]
  rw [feed_trailer t0 t1 _ rfl rfl, crcComplete]
  have hmismatch : trailerValue t0 t1 ≠ crc16 (hdrBytes ptype h ++ payload) :=
    fun heq => hwrong ((trailerValue_eq_iff ..).mp heq)
  simp only [List.getD_cons_zero, List.getD_cons_succ, if_pos hmismatch, dropFrame_eq]
  simp [frameOpen, State.begin, heldEvents, hesc, hhdr, hlen, hbuf, hcrc, hheld]

/-! ### Frames that pass -/

/-- A row that passes every check: committed, then classified with its payload in the receive buffer. -/
theorem receiveFrame_passing {ptype : PType} {h : HdrFields} {payload : List Byte} {i : Instr} {answers : List Bool}
    {s : State} (hm : (ptype, i) ∈ allFrames h (frameRest ptype h payload))
    (hpass : PassesChecks ptype h payload.length answers s) :
    ∃ rx crc, exec i s = .next (rxReset .waitDelimiter (classify ptype
      { committed h answers s with
        rxState := rx
        escState := .noesc
        rxHdr := hdrBytes ptype h
        rxLen := h.len
        rxBuf := payload
        rxCrc := crc
        rxHeld := true })) := by
  obtain ⟨rx, crc, heq⟩ := receive_passing false hpass
  exact ⟨rx, crc, by rw [allFrames_exec hm, receiveFrame, receiveStep, openFrame, heq]⟩

/-- Committing a frame leaves the receive registers as they were between two frames. -/
theorem committed_registers {ptype : PType} {h : HdrFields} {n : Nat} {answers : List Bool} {s : State}
    (hpass : PassesChecks ptype h n answers s) :
    let c := committed h answers s
    c.escState = .noesc ∧ c.rxHdr = [] ∧ c.rxLen = 0 ∧ c.rxBuf = [] ∧ c.rxCrc = [] ∧ c.rxHeld = false := by
  obtain ⟨k, armed, events, hshape⟩ := committed_shape h answers s
  rw [hshape]
  exact hpass.inv.assembler.1 hpass.boundary

/-- Settles O18. -/
theorem ordinaryFrameIsDelivered : Obligations.OrdinaryFrameIsDelivered := by
  intro h payload ptype i answers s hm hpass
  obtain ⟨hmem, hack, hlc⟩ := ordinaryFrames_mem hm
  obtain ⟨rx, crc, heq⟩ := receiveFrame_passing hmem hpass
  obtain ⟨hesc, hhdr, hlen, hbuf, hcrc, hheld⟩ := committed_registers hpass
  obtain ⟨k, armed, events, hshape⟩ := committed_shape h answers s
  have hqueue : (committed h answers s).inboundQ = s.inboundQ ∧ (committed h answers s).rxIdNext = s.rxIdNext := by
    rw [hshape]
    exact ⟨rfl, rfl⟩
  rw [heq, classify, if_neg hack, if_neg hlc]
  simp [deliverUp, rxReset_eq, heldEvents, State.emit, enqTail, hesc, hhdr, hlen, hbuf, hcrc, hheld, hqueue]

theorem classify_ack (s : State) : classify 0 s = freeRxBuffer s := rfl

theorem classify_linkControl (s : State) : classify 15 s = freeRxBuffer (lcRx s.rxBuf s) := rfl

/-- Settles O19. -/
theorem ackFrameIsConsumed : Obligations.AckFrameIsConsumed := by
  intro h payload answers s hpass
  obtain ⟨rx, crc, heq⟩ := receiveFrame_passing (i := .hdrAck h (frameRest 0 h payload)) (by simp [allFrames]) hpass
  obtain ⟨hesc, hhdr, hlen, hbuf, hcrc, hheld⟩ := committed_registers hpass
  rw [heq, classify_ack]
  simp [freeRxBuffer_eq, rxReset_eq, heldEvents, hesc, hhdr, hlen, hbuf, hcrc, hheld]

/-- Settles O20. -/
theorem linkControlFrameReachesController : Obligations.LinkControlFrameReachesController := by
  intro h payload answers s hpass
  obtain ⟨rx, crc, heq⟩ := receiveFrame_passing (i := .hdrLinkControl h (frameRest 15 h payload)) (by simp [allFrames]) hpass
  obtain ⟨hesc, hhdr, hlen, hbuf, hcrc, hheld⟩ := committed_registers hpass
  obtain ⟨link, sync, rtx, c, q, rest, draws, events, heffect, -, -⟩ := lcRx_effect payload (committed h answers s)
  rw [heq, classify_linkControl, lcRx_receive, heffect]
  simp [freeRxBuffer_eq, rxReset_eq, heldEvents, hesc, hhdr, hlen, hbuf, hcrc, hheld]

end Sys2Proof.Machine
end

section
/-! PROOF. RX_BYTE in every state of an open link (41_receive_assembler R105 to R124), O14; and what the diagnostics of a step tell of
it, O22. -/

namespace Sys2Proof.Machine

/-! ### A decoded byte -/

/-- A byte is given outside an escape, or at its end (R96, R97). -/
theorem escState_of_decodeByte {e e' : EscState} {b v : Byte} (h : decodeByte e b = (.byte v, e')) : e' = .noesc := by
  cases e with
  | noesc =>
    simp only [decodeByte] at h
    split at h
    · cases h
    split at h
    · cases h
    · exact (Prod.mk.inj h).2.symm
  | esc => exact (Prod.mk.inj h).2.symm

theorem receiveByte_decoded {s : State} (hopen : s.linkState ≠ .idle) (hin : InFrame s) {b v : Byte} {e : EscState}
    (hdec : decodeByte s.escState b = (.byte v, e)) :
    receiveByte b s = bodyByte v { s with escState := .noesc } := by
  rw [receiveByte_inFrame _ _ hopen hin, frameByte, hdec, escState_of_decodeByte hdec]

/-! ### The byte that completes a field -/

theorem bodyByte_header_full {s : State} (hrx : s.rxState = .waitHeader) {v : Byte} (hlen : s.rxHdr.length + 1 = 4) :
    bodyByte v s = headerComplete { s with rxHdr := s.rxHdr ++ [v] } := by
  simp only [bodyByte, hrx, headerByte, List.length_append, List.length_singleton, Config.hdrLen]
  exact if_pos hlen

theorem bodyByte_payload_full {s : State} (hrx : s.rxState = .waitPayload) {v : Byte}
    (hlen : s.rxBuf.length + 1 = s.rxLen.toNat) : bodyByte v s = payloadComplete { s with rxBuf := s.rxBuf ++ [v] } := by
  simp only [bodyByte, hrx, payloadByte, List.length_append, List.length_singleton]
  exact if_pos hlen

theorem bodyByte_trailer_full {s : State} (hrx : s.rxState = .waitCrc) {v : Byte} (hlen : s.rxCrc.length + 1 = 2) :
    bodyByte v s = crcComplete { s with rxCrc := s.rxCrc ++ [v] } := by
  simp only [bodyByte, hrx, crcTrailerByte, List.length_append, List.length_singleton, Config.crcLen]
  exact if_pos hlen

/-- The two outcomes of a trailer (R119). -/
theorem crcComplete_eq {s : State} (hlen : s.rxCrc.length = 2) :
    crcComplete s =
      if s.rxCrc = crcTrailer (s.rxHdr ++ s.rxBuf) then deliver s else dropFrame .crcMismatch .waitDelimiter s := by
  obtain ⟨t0, t1, hcrc⟩ := List.length_eq_two.mp hlen
  simp only [crcComplete, hcrc, List.getD_cons_zero, List.getD_cons_succ, ne_eq, trailerValue_eq_iff]
  split <;> simp_all

/-! ### Where the assembler stands after it -/

theorem rxState_deliver (s : State) : (deliver s).rxState = .waitDelimiter := by rw [deliver, rxReset_eq]

theorem rxState_payloadComplete (s : State) :
    (payloadComplete s).rxState = .waitCrc ∨ (payloadComplete s).rxState = .waitDelimiter := by
  unfold payloadComplete
  split
  · exact .inl rfl
  · exact .inr (rxState_deliver s)

theorem rxState_headerAccepted (len : PLen) (s : State) :
    (headerAccepted len s).rxState = .waitPayload ∨ (headerAccepted len s).rxState = .waitCrc ∨
      (headerAccepted len s).rxState = .waitDelimiter := by
  unfold headerAccepted
  dsimp only
  split
  · exact .inr (rxState_payloadComplete _)
  · exact .inl rfl

/-- Everything the fourth header byte can do: a drop, after a buffer was asked for or not, or an accepted header. -/
theorem headerComplete_cases (s : State) :
    (∃ code ∈ [ErrCode.headerChecksumError, .linkNotActive, .outOfOrderSequence],
      headerComplete s = dropFrame code .waitDelimiter s) ∨
    ∃ rest draws,
      let asked : State :=
        { s with
          poolAnswers := rest
          poolDraws := draws
          out := s.out ++ [.pool (.acquire ((hdrFields s.rxHdr).len.toNat + Config.hdrLen) s.params.headerReserve)] }
      headerComplete s = dropFrame .allocationFailure .waitDelimiter asked ∨
        headerComplete s = headerAccepted (hdrFields s.rxHdr).len asked := by
  unfold headerComplete
  dsimp only
  split
  · exact .inl ⟨_, by simp, rfl⟩
  split
  · exact .inl ⟨_, by simp, rfl⟩
  split
  · exact .inl ⟨_, by simp, rfl⟩
  obtain ⟨ok, rest, draws, hacquire⟩ := acquire_spec ((hdrFields s.rxHdr).len.toNat + Config.hdrLen) s
  rw [hacquire]
  refine .inr ⟨rest, draws, ?_⟩
  cases ok
  · exact .inl rfl
  · exact .inr rfl

theorem rxState_headerComplete (s : State) :
    (headerComplete s).rxState = .waitPayload ∨ (headerComplete s).rxState = .waitCrc ∨
      (headerComplete s).rxState = .waitDelimiter := by
  rcases headerComplete_cases s with ⟨code, -, hdrop⟩ | ⟨rest, draws, hdrop | haccept⟩
  · exact .inr (.inr (by rw [hdrop, rxState_dropFrame]))
  · exact .inr (.inr (by rw [hdrop, rxState_dropFrame]))
  · rw [haccept]
    exact rxState_headerAccepted _ _

theorem rxState_crcComplete (s : State) : (crcComplete s).rxState = .waitDelimiter := by
  unfold crcComplete
  split
  · exact rxState_dropFrame ..
  · exact rxState_deliver s

/-! ### The transition table -/

theorem diag_mem_dropFrame (code : ErrCode) (target : RxState) (s : State) :
    .diag code ∈ (dropFrame code target s).out := by simp [dropFrame_eq]

/-- The table's rows for a decoded byte (R106, R110, R117, R119). -/
theorem bodyByte_follows_table (v : Byte) (s : State) :
    (s.rxState = .waitHeader → s.rxHdr.length + 1 < 4 →
      (bodyByte v s).rxState = .waitHeader ∧ (bodyByte v s).rxHdr = s.rxHdr ++ [v]) ∧
    (s.rxState = .waitHeader → s.rxHdr.length + 1 = 4 →
      (bodyByte v s).rxState = .waitPayload ∨ (bodyByte v s).rxState = .waitCrc ∨
        (bodyByte v s).rxState = .waitDelimiter) ∧
    (s.rxState = .waitPayload → s.rxBuf.length + 1 < s.rxLen.toNat →
      (bodyByte v s).rxState = .waitPayload ∧ (bodyByte v s).rxBuf = s.rxBuf ++ [v]) ∧
    (s.rxState = .waitPayload → s.rxBuf.length + 1 = s.rxLen.toNat →
      (bodyByte v s).rxState = .waitCrc ∨ (bodyByte v s).rxState = .waitDelimiter) ∧
    (s.rxState = .waitCrc → s.rxCrc = [] → (bodyByte v s).rxState = .waitCrc ∧ (bodyByte v s).rxCrc = [v]) ∧
    (s.rxState = .waitCrc → s.rxCrc.length = 1 → (bodyByte v s).rxState = .waitDelimiter) := by
  refine ⟨fun hrx hlen => ?_, fun hrx hlen => ?_, fun hrx hlen => ?_, fun hrx hlen => ?_, fun hrx hcrc => ?_,
    fun hrx hlen => ?_⟩
  · rw [bodyByte_header hrx hlen]
    exact ⟨hrx, rfl⟩
  · rw [bodyByte_header_full hrx hlen]
    exact rxState_headerComplete _
  · rw [bodyByte_payload hrx hlen]
    exact ⟨hrx, rfl⟩
  · rw [bodyByte_payload_full hrx hlen]
    exact rxState_payloadComplete _
  · rw [bodyByte_trailer hrx hcrc]
    exact ⟨hrx, rfl⟩
  · rw [bodyByte_trailer_full hrx (by omega)]
    exact rxState_crcComplete _

/-! ### Whole next states -/

/-- The outcome of an accepted frame does not depend on the receive registers. -/
theorem delivery_congr {s t : State} (h : emptied s = emptied t) (ptype : PType) (f : HdrFields) (payload : List Byte) :
    delivery ptype f payload s = delivery ptype f payload t := by
  simp only [delivery, h]

theorem dropFrame_eq_emptied (code : ErrCode) (s : State) :
    dropFrame code .waitDelimiter s = { emptied s with out := s.out ++ .diag code :: heldEvents s } := by
  rw [dropFrame_eq, emptied]

/-- The state in which the next byte of a header completes it, once that byte is decoded. -/
def withHeader (hdr : List Byte) (s : State) : State := { s with escState := .noesc, rxHdr := hdr, out := [] }

/-- What a drop at the fourth header byte leaves, when no buffer was held. -/
theorem dropFrame_withHeader (code : ErrCode) (hdr : List Byte) {s : State} (hheld : s.rxHeld = false)
    (answers : List Bool) (events : List Event) :
    dropFrame code .waitDelimiter { withHeader hdr s with poolAnswers := answers, out := events } =
      { emptied s with poolAnswers := answers, out := events ++ [.diag code] } := by
  simp [dropFrame_eq_emptied, heldEvents, hheld, emptied, withHeader]

section
variable {s : State} (hinv : Inv s)
include hinv

/-- The byte that completes a header, when a check fails (R112 to R115). -/
theorem header_fails (hrx : s.rxState = .waitHeader) (hdr : List Byte) :
    (checksumOk hdr = false →
      headerComplete (withHeader hdr s) = { emptied s with out := [.diag .headerChecksumError] }) ∧
    (checksumOk hdr = true → ¬ Gate (withHeader hdr s) →
      headerComplete (withHeader hdr s) = { emptied s with out := [.diag .linkNotActive] }) ∧
    (checksumOk hdr = true → Gate (withHeader hdr s) → ¬ InSequence (withHeader hdr s) →
      headerComplete (withHeader hdr s) = { emptied s with out := [.diag .outOfOrderSequence] }) ∧
    (∀ answers, checksumOk hdr = true → Gate (withHeader hdr s) → InSequence (withHeader hdr s) →
      s.poolAnswers = false :: answers →
      headerComplete (withHeader hdr s) =
        { emptied s with
          poolAnswers := answers
          out := [.pool (.acquire ((hdrFields hdr).len.toNat + 4) s.params.headerReserve), .diag .allocationFailure] }) := by
  obtain ⟨-, hhead, -, -⟩ := hinv.assembler
  obtain ⟨-, -, -, -, hheld⟩ := hhead hrx
  have hdropped (code : ErrCode) := dropFrame_withHeader code hdr hheld s.poolAnswers []
  refine ⟨fun hsum => ?_, fun hsum hgate => ?_, fun hsum hgate hseq => ?_, fun answers hsum hgate hseq hpool => ?_⟩
  · exact (headerComplete_badChecksum hsum).trans (hdropped _)
  · exact (headerComplete_notActive hsum hgate).trans (hdropped _)
  · exact (headerComplete_outOfOrder hsum hgate hseq).trans (hdropped _)
  · rw [headerComplete_refused (s := withHeader hdr s) hsum hgate hseq hpool]
    exact dropFrame_withHeader _ hdr hheld answers _

/-- The byte that completes a header, when the four checks pass (R115, R116, R118). -/
theorem header_passes (hrx : s.rxState = .waitHeader) {hdr : List Byte} {answers : List Bool}
    (hsum : checksumOk hdr = true) (hgate : Gate (withHeader hdr s)) (hseq : InSequence (withHeader hdr s))
    (hpool : s.poolAnswers = true :: answers) :
    ((hdrFields hdr).len ≠ 0 ∨ (hdrFields hdr).crcPresent = true →
      headerComplete (withHeader hdr s) =
        { s with
          rxState := if (hdrFields hdr).len ≠ 0 then .waitPayload else .waitCrc
          escState := .noesc
          rxHdr := hdr
          rxLen := (hdrFields hdr).len
          rxHeld := true
          poolAnswers := answers
          out := [.pool (.acquire ((hdrFields hdr).len.toNat + 4) s.params.headerReserve)] }) ∧
    ((hdrFields hdr).len = 0 → (hdrFields hdr).crcPresent = false →
      headerComplete (withHeader hdr s) =
        delivery (hdrType hdr) (hdrFields hdr) []
          { s with
            poolAnswers := answers
            out := [.pool (.acquire ((hdrFields hdr).len.toNat + 4) s.params.headerReserve)] }) := by
  obtain ⟨-, hhead, -, -⟩ := hinv.assembler
  obtain ⟨-, -, hbuf, hcrc, -⟩ := hhead hrx
  rw [headerComplete_accepts (s := withHeader hdr s) hsum hgate hseq hpool]
  refine ⟨fun hbody => ?_, fun hlen hpresent => ?_⟩
  · refine (headerAccepted_awaits (s := asked answers (withHeader hdr s)) hbody hcrc).trans ?_
    simp [asked, withHeader, hbuf, Config.hdrLen]
  · have hnone : ¬ (hdrFields hdr).crcPresent = true := by simp [hpresent]
    rw [headerAccepted, if_pos (by exact hlen), payloadComplete, if_neg (by exact hnone), deliver_eq _ rfl]
    exact delivery_congr rfl _ _ _

/-- The byte that completes a payload (R118). -/
theorem payload_completes (hrx : s.rxState = .waitPayload) (buf : List Byte) :
    let u : State := { s with escState := .noesc, rxBuf := buf, out := [] }
    ((hdrFields s.rxHdr).crcPresent = true →
      payloadComplete u = { s with rxState := .waitCrc, escState := .noesc, rxBuf := buf, out := [] }) ∧
    ((hdrFields s.rxHdr).crcPresent = false →
      payloadComplete u = delivery (hdrType s.rxHdr) (hdrFields s.rxHdr) buf { s with out := [] }) := by
  obtain ⟨-, -, hpay, -⟩ := hinv.assembler
  obtain ⟨-, -, hcrc, hheld⟩ := hpay hrx
  refine ⟨fun hpresent => ?_, fun hpresent => ?_⟩
  · simp [payloadComplete, hpresent, hcrc]
  · simp only [payloadComplete, hpresent, Bool.false_eq_true, if_false]
    rw [deliver_eq _ (by exact hheld)]
    exact delivery_congr rfl _ _ _

/-- The byte that completes a trailer (R119). -/
theorem trailer_completes (hrx : s.rxState = .waitCrc) {crc : List Byte} (hlen : crc.length = 2) :
    let u : State := { s with escState := .noesc, rxCrc := crc, out := [] }
    (crc ≠ crcTrailer (s.rxHdr ++ s.rxBuf) →
      crcComplete u = { emptied s with out := [.diag .crcMismatch, .pool (.release s.rxBuf)] }) ∧
    (crc = crcTrailer (s.rxHdr ++ s.rxBuf) →
      crcComplete u = delivery (hdrType s.rxHdr) (hdrFields s.rxHdr) s.rxBuf { s with out := [] }) := by
  obtain ⟨-, -, -, htrail⟩ := hinv.assembler
  obtain ⟨-, -, -, hheld⟩ := htrail hrx
  intro u
  rw [crcComplete_eq (s := u) hlen]
  refine ⟨fun hwrong => ?_, fun hright => ?_⟩
  · rw [if_neg hwrong, dropFrame_eq_emptied]
    simp [u, heldEvents, hheld, emptied]
  · rw [if_pos hright, deliver_eq u hheld]
    exact delivery_congr rfl _ _ _

end

/-- Settles O14: the transition table row by row, and the three completing bytes. -/
theorem rxByteFollowsTransitionTable : Obligations.RxByteFollowsTransitionTable := by
  refine ⟨fun s b hopen => ⟨receiveByte b s.begin, rfl, ?_, ?_, ?_, ?_, ?_, ?_, ?_⟩, ?_⟩
  · intro hrx
    split
    · next hb =>
      obtain rfl : b = Config.delimByte := hb
      rw [receive_delim s.begin hopen (.inl hrx)]
    · next hb => rwa [receiveByte_skip b s.begin hrx hb]
  · rintro hrx rfl
    exact congrArg State.rxState (receive_delim s.begin hopen (.inr hrx))
  · exact fun hrx hb => congrArg Host.Outcome.next (receiveByte_frameStart (s := s.begin) hopen hrx hb)
  · rintro hin rfl
    have hdelim := receiveByte_delim_inFrame (s := s.begin) hopen hin
    exact ⟨(congrArg State.rxState hdelim).trans (rxState_dropFrame ..),
      (congrArg State.out hdelim) ▸ diag_mem_dropFrame ..⟩
  · rintro hin hesc rfl
    rw [show (0xDB : Byte) = Config.escByte from rfl, receiveByte_esc (s := s.begin) hopen hin hesc]
    exact ⟨rfl, rfl⟩
  · intro hin hesc hb
    rw [receiveByte_invalid (s := s.begin) hopen hin hesc hb]
    exact ⟨rxState_dropFrame .., diag_mem_dropFrame ..⟩
  · intro v e hdec
    by_cases hin : InFrame s
    · rw [receiveByte_decoded (s := s.begin) hopen hin hdec]
      exact bodyByte_follows_table v { s.begin with escState := .noesc }
    · obtain ⟨h1, h2, h3⟩ : s.rxState ≠ .waitHeader ∧ s.rxState ≠ .waitPayload ∧ s.rxState ≠ .waitCrc := by
        simpa [not_or] using hin
      exact ⟨fun h => absurd h h1, fun h => absurd h h1, fun h => absurd h h2, fun h => absurd h h2,
        fun h => absurd h h3, fun h => absurd h h3⟩
  · intro s b v e hinv hopen hdec
    have hexec (hin : InFrame s) : exec (.rxByte b) s = .next (bodyByte v { s.begin with escState := .noesc }) :=
      congrArg _ (receiveByte_decoded (s := s.begin) hopen hin hdec)
    refine ⟨fun hrx hlen => ?_, fun hrx hlen => ?_, fun hrx hlen => ?_⟩
    · rw [hexec (.inl hrx), bodyByte_header_full (s := { s.begin with escState := .noesc }) hrx hlen]
      obtain ⟨hsum, hgate, hseq, hrefused⟩ := header_fails hinv hrx (s.rxHdr ++ [v])
      refine ⟨fun a => congrArg _ (hsum a), fun a b => congrArg _ (hgate a b), fun a b c => congrArg _ (hseq a b c),
        fun answers a b c d => congrArg _ (hrefused answers a b c d), fun answers a b c d => ?_⟩
      obtain ⟨hawaits, hdelivers⟩ := header_passes hinv hrx (hdr := s.rxHdr ++ [v]) a b c d
      exact ⟨fun e => congrArg _ (hawaits e), fun e f => congrArg _ (hdelivers e f)⟩
    · rw [hexec (.inr (.inl hrx)), bodyByte_payload_full (s := { s.begin with escState := .noesc }) hrx hlen]
      obtain ⟨hawaits, hdelivers⟩ := payload_completes hinv hrx (s.rxBuf ++ [v])
      exact ⟨fun a => congrArg _ (hawaits a), fun a => congrArg _ (hdelivers a)⟩
    · rw [hexec (.inr (.inr hrx)), bodyByte_trailer_full (s := { s.begin with escState := .noesc }) hrx hlen]
      obtain ⟨hdrops, hdelivers⟩ := trailer_completes hinv hrx (crc := s.rxCrc ++ [v]) (by simpa using hlen)
      exact ⟨fun a => congrArg _ (hdrops a), fun a => congrArg _ (hdelivers a)⟩

end Sys2Proof.Machine
end

section
/-! PROOF. What receiving bytes may write (10_state R34, 43_link_controller R155, 60_exceptions R206): a received byte collects, drops
or delivers, and what each of these leaves as it was; O22, and the receive part of O48, O55 and O56. -/

namespace Sys2Proof.Machine

/-! ### Collecting a frame -/

/-- A call for a receive buffer (R115). -/
def IsAcquire (e : Event) : Prop := ∃ n reserve, e = .pool (.acquire n reserve)

/-- Only the receive registers differ, and the pool's part: all that is emitted are calls for a buffer. -/
structure Collects (s t : State) : Prop extends SameArqLink s t where
  params : t.params = s.params
  sched : t.sched = s.sched
  out : ∃ events, t.out = s.out ++ events ∧ ∀ e ∈ events, IsAcquire e

theorem Collects.refl (s : State) : Collects s s := by
  constructor
  case out => exact ⟨[], by simp, by simp⟩
  case toSameArqLink => constructor <;> rfl
  all_goals rfl

/-- Everything a received byte can do: it collects; or it collects and then drops or delivers the frame. A frame delivered at
its header has no payload. -/
def ByteEffect (s t : State) : Prop :=
  ∃ u, Collects s u ∧
    (t = u ∨ (∃ code target, (target = .waitDelimiter ∨ target = .waitFrameStart) ∧ t = dropFrame code target u) ∨
      (t = deliver u ∧ (s.rxState = .waitHeader → u.rxBuf = [])))

section
variable {s : State}

theorem ByteEffect.collects {t : State} (h : Collects s t) : ByteEffect s t := ⟨t, h, .inl rfl⟩

theorem ByteEffect.drops {u : State} (h : Collects s u) {code : ErrCode} {target : RxState}
    (ht : target = .waitDelimiter ∨ target = .waitFrameStart) : ByteEffect s (dropFrame code target u) :=
  ⟨u, h, .inr (.inl ⟨code, target, ht, rfl⟩)⟩

theorem ByteEffect.delivers {u : State} (h : Collects s u) (hbuf : s.rxState = .waitHeader → u.rxBuf = []) :
    ByteEffect s (deliver u) :=
  ⟨u, h, .inr (.inr ⟨rfl, hbuf⟩)⟩

theorem payloadComplete_effect {u : State} (h : Collects s u) (hbuf : s.rxState = .waitHeader → u.rxBuf = []) :
    ByteEffect s (payloadComplete u) := by
  unfold payloadComplete
  split
  · exact .collects { h with }
  · exact .delivers h hbuf

theorem headerComplete_effect {u : State} (h : Collects s u) : ByteEffect s (headerComplete u) := by
  have hasked (rest : List Bool) (draws : Nat) (n reserve : Nat) : Collects s
      { u with poolAnswers := rest, poolDraws := draws, out := u.out ++ [.pool (.acquire n reserve)] } := by
    obtain ⟨events, hout, hall⟩ := h.out
    refine { h with out := ⟨events ++ [.pool (.acquire n reserve)], by simp [hout], fun e he => ?_⟩ }
    rcases List.mem_append.mp he with he | he
    · exact hall e he
    · exact ⟨n, reserve, List.mem_singleton.mp he⟩
  rcases headerComplete_cases u with ⟨code, -, hdrop⟩ | ⟨rest, draws, hdrop | haccept⟩
  · rw [hdrop]
    exact .drops h (.inl rfl)
  · rw [hdrop]
    exact .drops (hasked ..) (.inl rfl)
  · rw [haccept, headerAccepted]
    dsimp only
    split
    · exact payloadComplete_effect { hasked rest draws _ _ with } fun _ => rfl
    · exact .collects { hasked rest draws _ _ with }

theorem bodyByte_effect (v : Byte) {u : State} (h : Collects s u) (hrx : u.rxState = s.rxState) :
    ByteEffect s (bodyByte v u) := by
  unfold bodyByte
  split
  · unfold headerByte
    dsimp only
    split
    · exact headerComplete_effect { h with }
    · exact .collects { h with }
  · next hpay =>
    have hnot : s.rxState ≠ .waitHeader := by simp [← hrx, hpay]
    unfold payloadByte
    dsimp only
    split
    · exact payloadComplete_effect { h with } fun hh => absurd hh hnot
    · exact .collects { h with }
  · next htrail =>
    have hnot : s.rxState ≠ .waitHeader := by simp [← hrx, htrail]
    unfold crcTrailerByte
    dsimp only
    split
    · unfold crcComplete
      split
      · exact .drops (by exact { h with }) (.inl rfl)
      · exact .delivers { h with } fun hh => absurd hh hnot
    · exact .collects { h with }
  · exact .collects h
  · exact .collects h

theorem frameByte_effect (b : Byte) {u : State} (h : Collects s u) (hrx : u.rxState = s.rxState) :
    ByteEffect s (frameByte b u) := by
  unfold frameByte
  dsimp only
  split
  · exact .collects { h with }
  · exact bodyByte_effect _ { h with } hrx
  · exact .drops (by exact { h with }) (.inl rfl)
  · exact .drops (by exact { h with }) (.inr rfl)
  · exact .drops (by exact { h with }) (.inr rfl)

end

theorem receiveByte_effect (b : Byte) (s : State) : ByteEffect s (receiveByte b s) := by
  have hrefl := Collects.refl s
  unfold receiveByte
  split
  · exact .collects hrefl
  split
  · split
    · exact .collects { hrefl with }
    · exact .collects hrefl
  · next hrx =>
    split
    · exact .collects hrefl
    · obtain ⟨u, hu, heffect⟩ := frameByte_effect b
        (Collects.refl { s with rxState := .waitHeader, rxHdr := [], escState := .noesc }) rfl
      refine ⟨u, { hu with }, heffect.imp_right (.imp_right fun ⟨ht, _⟩ => ⟨ht, fun hh => ?_⟩)⟩
      simp [hrx] at hh
  · exact frameByte_effect b hrefl rfl
  · exact frameByte_effect b hrefl rfl
  · exact frameByte_effect b hrefl rfl

/-! ### What is never written by it -/

/-- The registers that no received byte writes (R34's column of RX_BYTE, R27). -/
structure RxKeeps (s t : State) : Prop where
  params : t.params = s.params
  sched : t.sched = s.sched
  nextTxSeq : t.nextTxSeq = s.nextTxSeq
  syncRetry : t.syncRetry = s.syncRetry
  pendRelQ : t.pendRelQ = s.pendRelQ

theorem RxKeeps.refl (s : State) : RxKeeps s s := ⟨rfl, rfl, rfl, rfl, rfl⟩

theorem RxKeeps.trans {s t u : State} (h : RxKeeps s t) (h' : RxKeeps t u) : RxKeeps s u :=
  ⟨h'.params.trans h.params, h'.sched.trans h.sched, h'.nextTxSeq.trans h.nextTxSeq, h'.syncRetry.trans h.syncRetry,
    h'.pendRelQ.trans h.pendRelQ⟩

theorem Collects.keeps {s t : State} (h : Collects s t) : RxKeeps s t :=
  ⟨h.params, h.sched, h.nextTxSeq, h.syncRetry, h.pendRelQ⟩

theorem commitFrame_keeps (f : HdrFields) (s : State) : RxKeeps s (commitFrame f s) := by
  obtain ⟨k, armed, events, hprune, -⟩ := prune_shape f.ack
    { s with
      expectedRxSeq := if f.reliable then f.seq + 1 else s.expectedRxSeq
      ackPending := s.ackPending || f.reliable
      lastPeerAck := f.ack }
  rw [commitFrame_eq, commits, hprune]
  exact ⟨rfl, rfl, rfl, rfl, rfl⟩

theorem lcRx_keeps (payload : List Byte) (s : State) : RxKeeps s (lcRx payload s) := by
  obtain ⟨link, sync, rtx, crc, q, rest, draws, events, heffect, -, -⟩ := lcRx_effect payload s
  rw [heffect]
  exact ⟨rfl, rfl, rfl, rfl, rfl⟩

theorem freeRxBuffer_keeps (s : State) : RxKeeps s (freeRxBuffer s) := by
  rw [freeRxBuffer_eq]
  exact ⟨rfl, rfl, rfl, rfl, rfl⟩

theorem rxReset_keeps (target : RxState) (s : State) : RxKeeps s (rxReset target s) := by
  rw [rxReset_eq]
  exact ⟨rfl, rfl, rfl, rfl, rfl⟩

theorem classify_keeps (ptype : PType) (s : State) : RxKeeps s (classify ptype s) := by
  unfold classify
  split
  · exact freeRxBuffer_keeps s
  split
  · exact (lcRx_keeps _ s).trans (freeRxBuffer_keeps _)
  · exact ⟨rfl, rfl, rfl, rfl, rfl⟩

theorem deliver_keeps (s : State) : RxKeeps s (deliver s) :=
  ((commitFrame_keeps _ s).trans (classify_keeps _ _)).trans (rxReset_keeps _ _)

theorem dropFrame_keeps (code : ErrCode) (target : RxState) (s : State) : RxKeeps s (dropFrame code target s) := by
  rw [dropFrame_eq]
  exact ⟨rfl, rfl, rfl, rfl, rfl⟩

theorem receiveByte_keeps (b : Byte) (s : State) : RxKeeps s (receiveByte b s) := by
  obtain ⟨u, hu, ht | ⟨code, target, -, ht⟩ | ⟨ht, -⟩⟩ := receiveByte_effect b s <;> rw [ht]
  · exact hu.keeps
  · exact hu.keeps.trans (dropFrame_keeps ..)
  · exact hu.keeps.trans (deliver_keeps u)

theorem receiveBytes_keeps (wire : List Byte) (s : State) : RxKeeps s (receiveBytes wire s) := by
  induction wire generalizing s with
  | nil => exact .refl s
  | cons b bs ih => exact (receiveByte_keeps b s).trans (ih _)

/-! ### Diagnostics -/

/-- A delivery's diagnostics are those of PRUNE and of the link controller; an empty message sends nothing. -/
def DeliveryDiag (payload : List Byte) (c : ErrCode) : Prop :=
  c = .invalidAck ∨ c = .linkControlProtocolError ∨ (c = .allocationFailure ∧ payload ≠ [])

theorem diag_mem_prune {a : SeqNum} {s : State} {c : ErrCode} (h : .diag c ∈ (prune a s).out) :
    .diag c ∈ s.out ∨ c = .invalidAck := by
  obtain ⟨k, events, hfound, hinvalid, hprune⟩ := prune_eq a s
  have hend (es : List TxEntry) : .diag c ∉ endEvents es := by
    simp only [endEvents, List.mem_map, not_exists, not_and]
    intro e _
    split <;> simp
  rw [hprune] at h
  simp only [List.mem_append] at h
  rcases h with (h | h) | h
  · exact .inl h
  · cases hidx : ackIndex s.nextTxSeq a s.unackQ.length with
    | some j =>
      rw [(hfound j hidx).2] at h
      exact absurd h (hend _)
    | none =>
      rw [(hinvalid hidx).2] at h
      exact .inr (by simpa using h)
  · split at h <;> simp at h

theorem diag_mem_lcSend {m : LcMsg} {s : State} {c : ErrCode} (h : .diag c ∈ (lcSend m s).out) :
    .diag c ∈ s.out ∨ c = .allocationFailure := by
  obtain ⟨ok, rest, draws, -, hsend⟩ := lcSend_spec m s
  rw [hsend] at h
  cases ok
  · simpa using h
  · exact .inl (by simpa using h)

theorem lcRx_empty (s : State) : lcRx [] s = rxUnknown s := rfl

theorem diag_mem_lcRx {payload : List Byte} {s : State} {c : ErrCode} (h : .diag c ∈ (lcRx payload s).out) :
    .diag c ∈ s.out ∨ DeliveryDiag payload c := by
  by_cases hempty : payload = []
  · subst hempty
    rw [lcRx_empty] at h
    have hcode : .diag c ∈ s.out ∨ c = .linkControlProtocolError := by simpa [rxUnknown] using h
    exact hcode.imp_right fun hc => .inr (.inl hc)
  have hsent : .diag c ∈ s.out ∨ c = .allocationFailure → .diag c ∈ s.out ∨ DeliveryDiag payload c :=
    fun hc => hc.imp_right fun hc => .inr (.inr ⟨hc, hempty⟩)
  unfold lcRx at h
  split at h
  · exact hsent (diag_mem_lcSend h)
  · unfold rxSyncRsp at h
    split at h
    · refine hsent ((diag_mem_lcSend h).imp_left fun h => ?_)
      simpa using h
    · exact .inl h
  · unfold rxConfig at h
    split at h
    · rcases diag_mem_lcSend h with h | hc
      · exact hsent (diag_mem_lcSend h)
      · exact hsent (.inr hc)
    · exact hsent (diag_mem_lcSend h)
    all_goals exact .inl h
  · unfold rxConfigRsp at h
    split at h
    · exact .inl (by simpa using h)
    · exact .inl h
  · have hcode : .diag c ∈ s.out ∨ c = .linkControlProtocolError := by simpa [rxUnknown] using h
    exact hcode.imp_right fun hc => .inr (.inl hc)

theorem diag_mem_rxReset {target : RxState} {s : State} {c : ErrCode} (h : .diag c ∈ (rxReset target s).out) :
    .diag c ∈ s.out := by
  rw [rxReset_eq] at h
  have hfree : .diag c ∉ heldEvents s := by
    unfold heldEvents
    split <;> simp
  exact (List.mem_append.mp h).resolve_right hfree

theorem diag_mem_freeRxBuffer {s : State} {c : ErrCode} (h : .diag c ∈ (freeRxBuffer s).out) : .diag c ∈ s.out := by
  rw [freeRxBuffer_eq] at h
  have hfree : .diag c ∉ heldEvents s := by
    unfold heldEvents
    split <;> simp
  exact (List.mem_append.mp h).resolve_right hfree

theorem diag_mem_classify {ptype : PType} {s : State} {c : ErrCode} (h : .diag c ∈ (classify ptype s).out) :
    .diag c ∈ s.out ∨ DeliveryDiag s.rxBuf c := by
  unfold classify at h
  split at h
  · exact .inl (diag_mem_freeRxBuffer h)
  split at h
  · exact diag_mem_lcRx (diag_mem_freeRxBuffer h)
  · exact .inl (by simpa [deliverUp] using h)

theorem commitFrame_rxBuf (f : HdrFields) (s : State) : (commitFrame f s).rxBuf = s.rxBuf := by
  obtain ⟨k, armed, events, hprune, -⟩ := prune_shape f.ack
    { s with
      expectedRxSeq := if f.reliable then f.seq + 1 else s.expectedRxSeq
      ackPending := s.ackPending || f.reliable
      lastPeerAck := f.ack }
  rw [commitFrame_eq, commits, hprune]

theorem diag_mem_deliver {s : State} {c : ErrCode} (h : .diag c ∈ (deliver s).out) :
    .diag c ∈ s.out ∨ DeliveryDiag s.rxBuf c := by
  rcases diag_mem_classify (diag_mem_rxReset h) with h | h
  · rw [commitFrame_eq] at h
    exact (diag_mem_prune h).imp_right .inl
  · rw [commitFrame_rxBuf] at h
    exact .inr h

theorem Collects.diag_mem {s t : State} (h : Collects s t) {c : ErrCode} (hc : .diag c ∈ t.out) : .diag c ∈ s.out := by
  obtain ⟨events, hout, hall⟩ := h.out
  rw [hout, List.mem_append] at hc
  refine hc.resolve_right fun he => ?_
  obtain ⟨n, reserve, heq⟩ := hall _ he
  cases heq

/-- Settles O22: neither collecting a frame nor delivering one reports any of the six codes, so the byte dropped the frame. -/
theorem droppedFramesChangeNoArqState : Obligations.DroppedFramesChangeNoArqState := by
  intro b s t c hexec hcode hdiag
  obtain rfl : receiveByte b s.begin = t := Host.Outcome.next.inj hexec
  obtain ⟨u, hu, ht | ⟨code, target, htarget, ht⟩ | ⟨ht, hbuf⟩⟩ := receiveByte_effect b s.begin
  · rw [ht] at hdiag
    exact absurd (hu.diag_mem hdiag) (by simp)
  · rw [ht, dropFrame_eq]
    exact ⟨{ hu.toSameArqLink with }, htarget, rfl, rfl, rfl, rfl, rfl, rfl⟩
  · rw [ht] at hdiag
    rcases diag_mem_deliver hdiag with h | hdeliv
    · exact absurd (hu.diag_mem h) (by simp)
    · exfalso
      rcases hcode with hmem | ⟨rfl, hrx⟩
      · rcases hdeliv with rfl | rfl | ⟨rfl, -⟩ <;> simp at hmem
      · rcases hdeliv with h | h | ⟨-, hne⟩
        · cases h
        · cases h
        · exact hne (hbuf hrx)

/-! ### The link state -/

/-- The link state moves along one edge of the handshake (R155). -/
def HandshakeEdge (l l' : LinkState) : Prop :=
  (l = .syncing ∧ l' = .configuring) ∨ (l = .configuring ∧ l' = .active)

/-- The link state is as it was, or one edge further. -/
def LinkMoves (s t : State) : Prop := t.linkState = s.linkState ∨ HandshakeEdge s.linkState t.linkState

theorem lcRx_moves (payload : List Byte) (s : State) : LinkMoves s (lcRx payload s) := by
  obtain ⟨link, sync, rtx, crc, q, rest, draws, events, heffect, hedge, -⟩ := lcRx_effect payload s
  rw [heffect]
  rcases hedge with ⟨hl, -⟩ | ⟨hl, hl', -⟩ | ⟨hl, hl', -⟩
  · exact .inl hl
  · exact .inr (.inl ⟨hl, hl'⟩)
  · exact .inr (.inr ⟨hl, hl'⟩)

theorem freeRxBuffer_linkState (s : State) : (freeRxBuffer s).linkState = s.linkState := by rw [freeRxBuffer_eq]

theorem classify_moves (ptype : PType) (s : State) : LinkMoves s (classify ptype s) := by
  unfold classify
  split
  · exact .inl (freeRxBuffer_linkState s)
  split
  · have := lcRx_moves s.rxBuf s
    rwa [LinkMoves, ← freeRxBuffer_linkState (lcRx s.rxBuf s)] at this
  · exact .inl rfl

theorem deliver_moves (s : State) : LinkMoves s (deliver s) := by
  have := classify_moves (hdrType s.rxHdr) (commitFrame (hdrFields s.rxHdr) s)
  rw [LinkMoves, commitFrame_linkState] at this
  rw [LinkMoves, deliver, rxReset_eq]
  exact this

/-- A byte that moves the link state ends its frame: what follows up to the next delimiter is skipped. -/
theorem ByteEffect.link {s t : State} (h : ByteEffect s t) :
    t.linkState = s.linkState ∨ HandshakeEdge s.linkState t.linkState ∧ t.rxState = .waitDelimiter := by
  obtain ⟨u, hu, rfl | ⟨code, target, -, rfl⟩ | ⟨rfl, -⟩⟩ := h
  · exact .inl hu.linkState
  · exact .inl ((linkState_dropFrame ..).trans hu.linkState)
  · have := deliver_moves u
    rw [LinkMoves, hu.linkState] at this
    exact this.imp_right fun hedge => ⟨hedge, rxState_deliver u⟩

theorem ByteEffect.moves {s t : State} (h : ByteEffect s t) : LinkMoves s t := h.link.imp_right And.left

theorem feed_moves (body : List Byte) (s : State) : LinkMoves s (feed body s) := by
  induction body generalizing s with
  | nil => exact .inl rfl
  | cons v vs ih =>
    rw [feed_cons]
    rcases (bodyByte_effect v (Collects.refl s) rfl).link with hsame | ⟨hedge, hrx⟩
    · have := ih (bodyByte v s)
      rwa [LinkMoves, hsame] at this
    · rw [feed_skip _ _ hrx]
      exact .inr hedge

theorem receiveByte_idle (b : Byte) {s : State} (h : s.linkState = .idle) : receiveByte b s = s := by
  rw [receiveByte, if_pos h]

theorem receiveBytes_idle (wire : List Byte) {s : State} (h : s.linkState = .idle) : receiveBytes wire s = s := by
  induction wire with
  | nil => rfl
  | cons b bs ih => rw [receiveBytes, receiveByte_idle b h, ih]

theorem atBoundary_of_not_inFrame {s : State} (h : ¬ InFrame s) : AtBoundary s := by
  cases hrx : s.rxState <;> simp [InFrame, AtBoundary, hrx] at h ⊢

theorem receiveByte_delim_linkState (s : State) : (receiveByte Config.delimByte s).linkState = s.linkState := by
  by_cases hidle : s.linkState = .idle
  · rw [receiveByte_idle _ hidle]
  by_cases hin : InFrame s
  · rw [receiveByte_delim_inFrame hidle hin, linkState_dropFrame]
  · rw [receive_delim s hidle (atBoundary_of_not_inFrame hin)]

/-- An escape byte completes no frame: inside an escape it is an invalid code. -/
theorem receiveByte_esc_linkState (s : State) : (receiveByte Config.escByte s).linkState = s.linkState := by
  have hframe {u : State} (hopen : u.linkState ≠ .idle) (hin : InFrame u) :
      (receiveByte Config.escByte u).linkState = u.linkState := by
    cases hesc : u.escState with
    | noesc => rw [receiveByte_esc hopen hin hesc]
    | esc => rw [receiveByte_invalid hopen hin hesc (by decide), linkState_dropFrame]
  by_cases hidle : s.linkState = .idle
  · rw [receiveByte_idle _ hidle]
  by_cases hin : InFrame s
  · exact hframe hidle hin
  · rcases atBoundary_of_not_inFrame hin with hrx | hrx
    · rw [receiveByte_skip _ _ hrx (by decide)]
    · rw [receiveByte_frameStart hidle hrx (by decide)]
      exact hframe (u := frameOpen s) hidle (.inl rfl)

/-- A frame's bytes from its opening delimiter on, in any state: an earlier frame is abandoned, so at most one is delivered. -/
theorem receive_openFrame_moves (sw : Bool) (b : Byte) (body : List Byte) (s : State) :
    LinkMoves s (receiveBytes (Config.delimByte :: escBody sw (b :: body)) s) := by
  by_cases hidle : s.linkState = .idle
  · rw [receiveBytes_idle _ hidle]
    exact .inl rfl
  have hfrom {u : State} (hlink : u.linkState = s.linkState) (hb : AtBoundary u) :
      LinkMoves s (receiveBytes (Config.delimByte :: escBody sw (b :: body)) u) := by
    rw [receive_openFrame sw b body u (hlink ▸ hidle) hb]
    have := feed_moves (b :: body) (frameOpen u)
    rwa [LinkMoves, show (frameOpen u).linkState = s.linkState from hlink] at this
  by_cases hin : InFrame s
  · have hbound : AtBoundary (receiveByte Config.delimByte s) := by
      rw [receiveByte_delim_inFrame hidle hin]
      exact .inr (rxState_dropFrame ..)
    have htwice : receiveBytes (Config.delimByte :: escBody sw (b :: body)) s =
        receiveBytes (Config.delimByte :: escBody sw (b :: body)) (receiveByte Config.delimByte s) := by
      rw [receiveBytes, receiveBytes, receiveByte_delim_twice hidle hin]
    rw [htwice]
    exact hfrom (receiveByte_delim_linkState s) hbound
  · exact hfrom rfl (atBoundary_of_not_inFrame hin)

/-- The shapes of a wire code's bytes: one byte, an escape and one more, or a frame, with or without its closing delimiter. -/
theorem wireBytes_shape {i : Instr} {wire : List Byte} (h : wireBytes i = some wire) :
    (∃ b, wire = [b]) ∨ (∃ x, wire = [Config.escByte, x]) ∨
      ∃ b body closing, wire = (Config.delimByte :: escBody false (b :: body)) ++ closing ∧
        (closing = [] ∨ closing = [Config.delimByte]) := by
  have hheader (ptype : PType) (f : HdrFields) (rest : List Byte) :
      ∃ b body closing, openFrame (hdrBytes ptype f ++ rest) = (Config.delimByte :: escBody false (b :: body)) ++ closing ∧
        (closing = [] ∨ closing = [Config.delimByte]) :=
    ⟨_, _, [], by rw [List.append_nil]; rfl, .inl rfl⟩
  have hmessage (payload : List Byte) :
      ∃ b body closing, messageWire payload = (Config.delimByte :: escBody false (b :: body)) ++ closing ∧
        (closing = [] ∨ closing = [Config.delimByte]) :=
    ⟨_, _, [Config.delimByte], messageWire_eq payload, .inr rfl⟩
  cases i <;> cases h
  case delim | literal => exact .inl ⟨_, rfl⟩
  case escDelim | escEsc | escXon | escXoff | escInvalid | escThenDelim => exact .inr (.inl ⟨_, rfl⟩)
  case lcSync | lcSyncRsp | lcConfig | lcConfigRsp | lcUnknown => exact .inr (.inr (hmessage _))
  all_goals exact .inr (.inr (hheader _ _ _))

/-- A wire code moves the link state along one edge at most. -/
theorem receive_wire_moves {i : Instr} {wire : List Byte} (h : wireBytes i = some wire) (s : State) :
    LinkMoves s (receiveBytes wire s) := by
  rcases wireBytes_shape h with ⟨b, rfl⟩ | ⟨x, rfl⟩ | ⟨b, body, closing, rfl, hclosing⟩
  · exact (receiveByte_effect b s).moves
  · have := (receiveByte_effect x (receiveByte Config.escByte s)).moves
    rwa [LinkMoves, receiveByte_esc_linkState] at this
  · have hmoves := receive_openFrame_moves false b body s
    rw [receiveBytes_append]
    rcases hclosing with rfl | rfl
    · exact hmoves
    · rwa [LinkMoves, receiveBytes, receiveBytes, receiveByte_delim_linkState]

end Sys2Proof.Machine
end

section
/-! PROOF. What each command may write (10_state R34): the shape of its next state, once; O48, O52, O55, O56 and O57 from these. -/

namespace Sys2Proof.Machine

/-! ### The shapes -/

theorem rejectSubmit_shape (code : ErrCode) (payload : List Byte) (owned : Bool) (s : State) :
    ∃ out, rejectSubmit code payload owned s = { s with out := out } := by
  cases owned
  · exact ⟨_, rfl⟩
  · exact ⟨_, rfl⟩

theorem enqueueSubmit_shape (e : TxEntry) (s : State) :
    ∃ unrel rel out, enqueueSubmit e s = { s with pendUnrelQ := unrel, pendRelQ := rel, out := out } := by
  unfold enqueueSubmit
  split
  · exact ⟨_, _, _, rfl⟩
  · exact ⟨_, _, _, rfl⟩

theorem submitOp_shape (ptype : PType) (reliable : Bool) (payload : List Byte) (owned : Bool) (tag : Nat) (s : State) :
    ∃ unrel rel answers draws out, submitOp ptype reliable payload owned tag s =
      { s with pendUnrelQ := unrel, pendRelQ := rel, poolAnswers := answers, poolDraws := draws, out := out } := by
  have hreject (code : ErrCode) (u : State) (hu : ∃ answers draws out, u =
      { s with poolAnswers := answers, poolDraws := draws, out := out }) :
      ∃ unrel rel answers draws out, rejectSubmit code payload owned u =
        { s with pendUnrelQ := unrel, pendRelQ := rel, poolAnswers := answers, poolDraws := draws, out := out } := by
    obtain ⟨answers, draws, out, rfl⟩ := hu
    obtain ⟨out', heq⟩ := rejectSubmit_shape code payload owned
      { s with poolAnswers := answers, poolDraws := draws, out := out }
    exact ⟨_, _, _, _, _, heq⟩
  have hsame : ∃ answers draws out, s = { s with poolAnswers := answers, poolDraws := draws, out := out } :=
    ⟨_, _, _, rfl⟩
  unfold submitOp
  split
  · exact hreject _ _ hsame
  split
  · exact hreject _ _ hsame
  split
  · exact hreject _ _ hsame
  split
  · exact hreject _ _ hsame
  obtain ⟨ok, rest, draws, hacquire⟩ := acquire_spec payload.length s
  rw [hacquire]
  cases ok
  · exact hreject _ _ ⟨_, _, _, rfl⟩
  · obtain ⟨unrel, rel, out, heq⟩ := enqueueSubmit_shape _ _
    exact ⟨unrel, rel, rest, draws, out, heq⟩

theorem releaseOp_shape (id : Nat) (s : State) :
    ∃ inbound out, releaseOp id s = { s with inboundQ := inbound, out := out } := by
  unfold releaseOp
  split
  · exact ⟨_, _, rfl⟩
  split
  · exact ⟨_, _, rfl⟩
  · exact ⟨_, _, rfl⟩

theorem pullAckOrNone_shape (s : State) :
    ∃ pending out, pullAckOrNone s = { s with ackPending := pending, out := out } := by
  rw [pullAckOrNone_eq]
  split
  · exact ⟨_, _, rfl⟩
  · exact ⟨_, _, rfl⟩

theorem pullOp_shape (s : State) :
    ∃ next pending armed unrel rel unack out, pullOp s =
      { s with
        nextTxSeq := next
        ackPending := pending
        rtxTimerArmed := armed
        pendUnrelQ := unrel
        pendRelQ := rel
        unackQ := unack
        out := out } := by
  have hack : ∃ next pending armed unrel rel unack out, pullAckOrNone s =
      { s with
        nextTxSeq := next
        ackPending := pending
        rtxTimerArmed := armed
        pendUnrelQ := unrel
        pendRelQ := rel
        unackQ := unack
        out := out } := by
    obtain ⟨pending, out, heq⟩ := pullAckOrNone_shape s
    exact ⟨_, pending, _, _, _, _, out, heq⟩
  unfold pullOp
  split
  · exact ⟨_, _, _, _, _, _, _, rfl⟩
  split
  · rw [pullUnreliable, releaseTx_eq]
    exact ⟨_, _, _, _, _, _, _, rfl⟩
  split
  · split
    · exact ⟨_, _, _, _, _, _, _, rfl⟩
    · exact hack
  · exact hack

theorem syncExpireOp_shape (s : State) :
    ∃ retry unrel answers draws out, syncExpireOp s =
      { s with
        syncTimerArmed := true
        syncRetry := retry
        pendUnrelQ := unrel
        poolAnswers := answers
        poolDraws := draws
        out := out } := by
  have hcount : ∃ retry out, countSyncRetry s = { s with syncRetry := retry, out := out } := by
    unfold countSyncRetry
    split
    · exact ⟨_, _, rfl⟩
    · exact ⟨_, _, rfl⟩
  obtain ⟨retry, out, hcount⟩ := hcount
  obtain ⟨q, rest, draws, events, hsend, -⟩ := lcSend_shape .sync (countSyncRetry s)
  rw [syncExpireOp, hsend, hcount]
  exact ⟨retry, _, rest, draws, _, rfl⟩

/-- OPEN answers, or resets and starts the handshake. -/
theorem openOp_shape (s : State) :
    (s.linkState ≠ .idle ∧ openOp s = answer .alreadyOpen s) ∨
    s.linkState = .idle ∧ ∃ unrel answers draws out, openOp s =
      { s.resetRegs with
        linkState := .syncing
        syncTimerArmed := true
        pendUnrelQ := unrel
        poolAnswers := answers
        poolDraws := draws
        out := out } := by
  unfold openOp
  split
  · next hidle =>
    obtain ⟨q, rest, draws, events, hsend, -⟩ := lcSend_shape .sync { s.resetRegs with linkState := .syncing }
    rw [hsend]
    exact .inr ⟨hidle, _, rest, draws, _, rfl⟩
  · next hopen => exact .inl ⟨hopen, rfl⟩

/-- CLOSE of an open link leaves the reset values; before that it only emits. -/
theorem closeOp_eq {s : State} (hopen : s.linkState ≠ .idle) :
    closeOp s =
      { s.resetRegs with
        out := s.out ++ [.timer .sync .stop, .timer .rtx .stop] ++
          endEvents (s.unackQ ++ s.pendRelQ ++ s.pendUnrelQ) ++
          (s.inboundQ.map fun e => .pool (.release e.payload)) ++ heldEvents s ++ [.result .ok] } := by
  rw [closeOp, if_neg hopen]
  dsimp only
  rw [rxReset_eq, freeAll_eq, releaseAll_eq]
  simp [answer, State.emit, State.resetRegs, stopRtxTimer, stopSyncTimer, heldEvents]

/-! ### Stops -/

/-- Settles O57. -/
theorem onlyDisarmedExpiriesStop : Obligations.OnlyDisarmedExpiriesStop := by
  intro i s
  cases i
  case rtxExpire =>
    cases harmed : s.rtxTimerArmed with
    | true => exact .inl ⟨rtxExpireOp s.begin, by rw [exec, execRtxExpire, if_pos harmed]⟩
    | false => exact .inr (.inl ⟨rfl, rfl⟩)
  case syncExpire =>
    cases harmed : s.syncTimerArmed with
    | true => exact .inl ⟨syncExpireOp s.begin, by rw [exec, execSyncExpire, if_pos harmed]⟩
    | false => exact .inr (.inr ⟨rfl, rfl⟩)
  all_goals exact .inl ⟨_, rfl⟩

theorem rtxExpire_next {s t : State} (h : exec .rtxExpire s = .next t) :
    s.rtxTimerArmed = true ∧ t = rtxExpireOp s.begin := by
  rw [exec, execRtxExpire] at h
  split at h
  · next harmed => exact ⟨harmed, (Host.Outcome.next.inj h).symm⟩
  · cases h

theorem syncExpire_next {s t : State} (h : exec .syncExpire s = .next t) :
    s.syncTimerArmed = true ∧ t = syncExpireOp s.begin := by
  rw [exec, execSyncExpire] at h
  split at h
  · next harmed => exact ⟨harmed, (Host.Outcome.next.inj h).symm⟩
  · cases h

/-! ### What an instruction runs -/

/-- An instruction is its wire bytes received in order, or one of the eight commands. -/
inductive Runs (s : State) : Instr → State → Prop where
  | wire {i : Instr} {wire : List Byte} (h : wireBytes i = some wire) : Runs s i (receiveBytes wire s.begin)
  | rxByte (b : Byte) : Runs s (.rxByte b) (receiveByte b s.begin)
  | openLink : Runs s .openLink (openOp s.begin)
  | closeLink : Runs s .closeLink (closeOp s.begin)
  | submit (ptype : PType) (reliable : Bool) (payload : List Byte) (owned : Bool) (tag : Nat) :
    Runs s (.submit ptype reliable payload owned tag) (submitOp ptype reliable payload owned tag s.begin)
  | release (id : Nat) : Runs s (.release id) (releaseOp id s.begin)
  | txPull : Runs s .txPull (pullOp s.begin)
  | rtxExpire (armed : s.rtxTimerArmed = true) : Runs s .rtxExpire (rtxExpireOp s.begin)
  | syncExpire (armed : s.syncTimerArmed = true) : Runs s .syncExpire (syncExpireOp s.begin)

theorem runs_of_exec {i : Instr} {s t : State} (h : exec i s = .next t) : Runs s i t := by
  cases hwire : wireBytes i with
  | some wire =>
    rw [exec_of_wireBytes hwire] at h
    cases h
    exact .wire hwire
  | none =>
    cases i
    case rxByte b => cases h; exact .rxByte b
    case openLink => cases h; exact .openLink
    case closeLink => cases h; exact .closeLink
    case submit => cases h; exact .submit ..
    case release => cases h; exact .release _
    case txPull => cases h; exact .txPull
    case rtxExpire =>
      obtain ⟨harmed, rfl⟩ := rtxExpire_next h
      exact .rtxExpire harmed
    case syncExpire =>
      obtain ⟨harmed, rfl⟩ := syncExpire_next h
      exact .syncExpire harmed
    all_goals cases hwire

/-- Settles O48: a wire code and RX_BYTE by the lemmas on receiving, OPEN and CLOSE by their shapes; no other command writes
`link_state`. -/
theorem linkStateChangesOnlyAsListed : Obligations.LinkStateChangesOnlyAsListed := by
  intro i s t h
  cases runs_of_exec h with
  | wire hwire =>
    exact (receive_wire_moves hwire s.begin).imp_right fun hedge => .inr (.inr ⟨.inr (by simp [hwire]), hedge⟩)
  | rxByte b =>
    exact (receiveByte_effect b s.begin).moves.imp_right fun hedge => .inr (.inr ⟨.inl ⟨b, rfl⟩, hedge⟩)
  | openLink =>
    rcases openOp_shape s.begin with ⟨-, heq⟩ | ⟨hidle, unrel, answers, draws, out, heq⟩ <;> rw [heq]
    · exact .inl rfl
    · exact .inr (.inl ⟨rfl, hidle, rfl⟩)
  | closeLink =>
    by_cases hidle : s.linkState = .idle
    · rw [closeOp, if_pos (by exact hidle)]
      exact .inl rfl
    · rw [closeOp_eq (by exact hidle)]
      exact .inr (.inr (.inl ⟨rfl, hidle, rfl⟩))
  | submit ptype rel payload owned tag =>
    obtain ⟨unrel, rel', answers, draws, out, heq⟩ := submitOp_shape ptype rel payload owned tag s.begin
    rw [heq]
    exact .inl rfl
  | release id =>
    obtain ⟨inbound, out, heq⟩ := releaseOp_shape id s.begin
    rw [heq]
    exact .inl rfl
  | txPull =>
    obtain ⟨next, pending, armed, unrel, rel, unack, out, heq⟩ := pullOp_shape s.begin
    rw [heq]
    exact .inl rfl
  | rtxExpire => exact .inl rfl
  | syncExpire =>
    obtain ⟨retry, unrel, answers, draws, out, heq⟩ := syncExpireOp_shape s.begin
    rw [heq]
    exact .inl rfl

/-- Settles O52: in IDLE no byte is taken, the commands answer, and by the invariant no expiry is enabled. -/
theorem onlyOpenActsInIdle : Obligations.OnlyOpenActsInIdle := by
  intro i s t hinv hidle hnot h
  have hbegin : s.begin.linkState = .idle := hidle
  cases runs_of_exec h with
  | wire =>
    rw [receiveBytes_idle _ hbegin]
    rfl
  | rxByte b =>
    rw [receiveByte_idle b hbegin]
    rfl
  | openLink => exact absurd rfl hnot
  | closeLink =>
    rw [closeOp, if_pos hbegin]
    rfl
  | submit ptype rel payload owned tag =>
    obtain ⟨out, heq⟩ := rejectSubmit_shape .notOpen payload owned s.begin
    rw [submitOp, if_pos hbegin, heq]
    rfl
  | release id =>
    rw [releaseOp, if_pos hbegin]
    rfl
  | txPull =>
    rw [pullOp, if_pos hbegin]
    rfl
  | rtxExpire harmed => rcases hinv.rtxTimer harmed with hl | hl <;> exact absurd (hl.symm.trans hidle) (by decide)
  | syncExpire harmed => exact absurd ((hinv.syncTimer harmed).symm.trans hidle) (by decide)

/-- Settles O55. -/
theorem parametersNeverChange : Obligations.ParametersNeverChange := by
  refine ⟨fun i s t h => ?_, fun s => ⟨rfl, rfl, rfl, rfl, rfl⟩⟩
  cases runs_of_exec h with
  | @wire _ wire _ =>
    have := receiveBytes_keeps wire s.begin
    exact ⟨this.params, this.sched⟩
  | rxByte b =>
    have := receiveByte_keeps b s.begin
    exact ⟨this.params, this.sched⟩
  | openLink =>
    rcases openOp_shape s.begin with ⟨-, heq⟩ | ⟨-, unrel, answers, draws, out, heq⟩ <;> rw [heq] <;> exact ⟨rfl, rfl⟩
  | closeLink =>
    by_cases hidle : s.linkState = .idle
    · rw [closeOp, if_pos (by exact hidle)]
      exact ⟨rfl, rfl⟩
    · rw [closeOp_eq (by exact hidle)]
      exact ⟨rfl, rfl⟩
  | submit ptype rel payload owned tag =>
    obtain ⟨unrel, rel', answers, draws, out, heq⟩ := submitOp_shape ptype rel payload owned tag s.begin
    rw [heq]
    exact ⟨rfl, rfl⟩
  | release id =>
    obtain ⟨inbound, out, heq⟩ := releaseOp_shape id s.begin
    rw [heq]
    exact ⟨rfl, rfl⟩
  | txPull =>
    obtain ⟨next, pending, armed, unrel, rel, unack, out, heq⟩ := pullOp_shape s.begin
    rw [heq]
    exact ⟨rfl, rfl⟩
  | rtxExpire => exact ⟨rfl, rfl⟩
  | syncExpire =>
    obtain ⟨retry, unrel, answers, draws, out, heq⟩ := syncExpireOp_shape s.begin
    rw [heq]
    exact ⟨rfl, rfl⟩

theorem SameReceive.refl (s : State) : SameReceive s s := by constructor <;> rfl

theorem SameArqLink.refl (s : State) : SameArqLink s s := by constructor <;> rfl

/-- Settles O56: column by column from the shapes. -/
theorem operationsWriteOnlyTheirColumn : Obligations.OperationsWriteOnlyTheirColumn := by
  refine ⟨fun ptype rel payload owned tag s t h => ?_, fun id s t h => ?_, fun b s t h => ?_, fun s t h => ?_,
    fun s t h => ?_, fun s t h => ?_⟩
  · obtain ⟨unrel, rel', answers, draws, out, heq⟩ := submitOp_shape ptype rel payload owned tag s.begin
    rw [← Host.Outcome.next.inj h, heq]
    exact ⟨{ SameReceive.refl s with }, { SameArqLink.refl s with }⟩
  · obtain ⟨inbound, out, heq⟩ := releaseOp_shape id s.begin
    rw [← Host.Outcome.next.inj h, heq]
    exact ⟨{ SameReceive.refl s with }, { SameArqLink.refl s with }⟩
  · have := receiveByte_keeps b s.begin
    rw [← Host.Outcome.next.inj h]
    exact ⟨this.nextTxSeq, this.syncRetry, this.pendRelQ⟩
  · obtain ⟨next, pending, armed, unrel, rel, unack, out, heq⟩ := pullOp_shape s.begin
    rw [← Host.Outcome.next.inj h, heq]
    exact ⟨{ SameReceive.refl s with }, { SameArqLink.refl s with }⟩
  · rw [(rtxExpire_next h).2]
    exact ⟨{ SameReceive.refl s with }, { SameArqLink.refl s with }⟩
  · obtain ⟨retry, unrel, answers, draws, out, heq⟩ := syncExpireOp_shape s.begin
    rw [(syncExpire_next h).2, heq]
    exact ⟨{ SameReceive.refl s with }, { SameArqLink.refl s with }⟩

end Sys2Proof.Machine
end

section
/-! PROOF. The ARQ Engine's operations (42_arq_engine R130 to R148): SUBMIT, TX_PULL, RTX_EXPIRE, RELEASE; O23 to O27 and O30 to O33. -/

namespace Sys2Proof.Machine

/-! ### SUBMIT -/

/-- The release of a rejected payload that the block holds (R130). -/
def freedEvents (owned : Bool) (payload : List Byte) : List Event := if owned then [] else [.pool (.release payload)]

theorem rejectSubmit_eq (code : ErrCode) (payload : List Byte) (owned : Bool) (s : State) :
    rejectSubmit code payload owned s = { s with out := s.out ++ freedEvents owned payload ++ [.result code] } := by
  cases owned <;> simp [rejectSubmit, freedEvents, answer, free, State.emit]

theorem submittable_iff (ptype : PType) : submittable ptype = true ↔ ptype ∈ ([1, 2, 3, 4] : List PType) := by
  revert ptype; decide

/-- SUBMIT in ACTIVE with an admitted type and a payload that fits: the pool decides (R130). -/
theorem submitOp_asks {ptype : PType} {payload : List Byte} {s : State} (hactive : s.linkState = .active)
    (hptype : ptype ∈ ([1, 2, 3, 4] : List PType)) (hfits : payload.length ≤ 4095) {ok : Bool} {answers : List Bool}
    (hpool : s.poolAnswers = ok :: answers) (reliable owned : Bool) (tag : Nat) :
    let asked : State :=
      { s with
        poolAnswers := answers
        out := s.out ++ [.pool (.acquire payload.length s.params.headerReserve)] }
    submitOp ptype reliable payload owned tag s =
      if ok then enqueueSubmit ⟨ptype, reliable, payload, owned, some tag, 0⟩ asked
      else rejectSubmit .allocationFailure payload owned asked := by
  have hsub : submittable ptype = true := (submittable_iff ptype).mpr hptype
  have hlong : ¬ payload.length > Config.maxPayload := not_lt.mpr hfits
  have hidle : ¬ s.linkState = .idle := by simp [hactive]
  rw [submitOp, if_neg hidle, if_neg (not_not.mpr hactive), hsub, if_neg (by simp), if_neg hlong,
    acquire_answered _ _ _ _ hpool]
  cases ok <;> rfl

/-- Settles O23: check by check. -/
theorem submitRejections : Obligations.SubmitRejections := by
  intro ptype reliable payload owned tag s freed run
  have hreject (code : ErrCode) (events : List Event) (answers : List Bool) :
      rejectSubmit code payload owned { s with poolAnswers := answers, out := events } =
        { s with poolAnswers := answers, out := events ++ freed ++ [.result code] } := rejectSubmit_eq ..
  have hrun : run = .next (submitOp ptype reliable payload owned tag s.begin) := rfl
  have hnext {t : State} (h : submitOp ptype reliable payload owned tag s.begin = t) : run = .next t := by rw [hrun, h]
  refine ⟨fun hl => hnext ?_, fun hl => hnext ?_, fun hl hp => hnext ?_, fun hl hp hlong => hnext ?_,
    fun hl hp hfits answers hpool => hnext ?_⟩
  · rw [submitOp, if_pos (by exact hl)]
    exact hreject .notOpen [] s.poolAnswers
  · have hclosed : s.begin.linkState ≠ .idle ∧ s.begin.linkState ≠ .active := by rcases hl with hl | hl <;> simp [hl]
    rw [submitOp, if_neg hclosed.1, if_pos hclosed.2]
    exact hreject .linkNotActive [] s.poolAnswers
  · have hsub : (!submittable ptype) = true := by simpa using mt (submittable_iff ptype).mp hp
    rw [submitOp, if_neg (by simp [hl]), if_neg (by simp [hl]), if_pos hsub]
    exact hreject .invalidPacketType [] s.poolAnswers
  · have hsub := (submittable_iff ptype).mpr hp
    rw [submitOp, if_neg (by simp [hl]), if_neg (by simp [hl]), hsub, if_neg (by simp), if_pos (by exact hlong)]
    exact hreject .payloadTooLarge [] s.poolAnswers
  · rw [submitOp_asks (s := s.begin) hl hp hfits hpool]
    exact hreject .allocationFailure _ answers

/-- Settles O24. -/
theorem submitEnqueues : Obligations.SubmitEnqueues := by
  intro ptype reliable payload owned tag answers s hactive hptype hfits hpool e
  refine congrArg Host.Outcome.next ?_
  rw [submitOp_asks (s := s.begin) hactive hptype hfits hpool]
  cases reliable <;> rfl

/-! ### TX_PULL -/

theorem pullOp_unreliable {e : TxEntry} {rest : List TxEntry} {s : State} (hopen : s.linkState ≠ .idle)
    (hq : s.pendUnrelQ = e :: rest) : pullOp s = pullUnreliable e rest s := by
  rw [pullOp, if_neg hopen, hq]

theorem pullOp_reliable {e : TxEntry} {rest : List TxEntry} {s : State} (hopen : s.linkState ≠ .idle)
    (hunrel : s.pendUnrelQ = []) (hq : s.pendRelQ = e :: rest) (hwindow : s.unackQ.length < Config.window) :
    pullOp s = pullReliable e rest s := by
  rw [pullOp, if_neg hopen, hunrel, hq]
  exact if_pos hwindow

/-- With nothing to send, or the window full, branches 3 and 4 remain (R137, R138). -/
theorem pullOp_ackOrNone {s : State} (hopen : s.linkState ≠ .idle) (hunrel : s.pendUnrelQ = [])
    (hrel : s.pendRelQ = [] ∨ Config.window ≤ s.unackQ.length) : pullOp s = pullAckOrNone s := by
  rw [pullOp, if_neg hopen, hunrel]
  cases hq : s.pendRelQ with
  | nil => rfl
  | cons e rest =>
    have hfull := hrel.resolve_left (by simp [hq])
    exact if_neg (not_lt.mpr hfull)

/-- Settles O25. -/
theorem pullSendsUnreliableFirst : Obligations.PullSendsUnreliableFirst := by
  intro e rest s hopen hq
  refine congrArg Host.Outcome.next ?_
  rw [pullOp_unreliable (s := s.begin) hopen hq, pullUnreliable, releaseTx_eq]
  rfl

/-- Settles O26. -/
theorem pullSendsReliableWithinWindow : Obligations.PullSendsReliableWithinWindow := by
  intro e rest s hopen hunrel hq hwindow
  refine congrArg Host.Outcome.next ?_
  rw [pullOp_reliable (s := s.begin) hopen hunrel hq hwindow]
  rfl

theorem txFrame_not_mem_endEvents (frame : List Byte) (es : List TxEntry) : .txFrame frame ∉ endEvents es := by
  simp only [endEvents, List.mem_map, not_exists, not_and]
  intro e _
  split <;> simp

/-- Settles O27: the acknowledgment branch by link state; before ACTIVE the queues hold link-control entries only. -/
theorem pullAcknowledgesOrIsSilent : Obligations.PullAcknowledgesOrIsSilent := by
  intro s acknowledged silent
  have hack : pullAckOrNone s.begin =
      if s.ackPending = true ∧ ackAllowed s.linkState = true then acknowledged else silent :=
    pullAckOrNone_eq s.begin
  have hbefore (hopen : s.linkState ≠ .idle) (hl : s.linkState ≠ .active) :
      ackAllowed s.linkState = Config.ackBeforeActive :=
    ackAllowed_handshake (by cases h : s.linkState <;> simp_all)
  refine ⟨fun hidle => ?_, fun hopen hunrel hrel => ?_, fun hinv hl t frame hexec hframe => ?_⟩
  · refine congrArg Host.Outcome.next ?_
    rw [pullOp, if_pos (by exact hidle)]
    rfl
  · have hrun : exec .txPull s = .next (pullAckOrNone s.begin) :=
      congrArg Host.Outcome.next (pullOp_ackOrNone (s := s.begin) hopen hunrel hrel)
    rw [hrun, hack]
    refine ⟨fun hp hl => ?_, fun hp hl => ?_, fun hp => ?_⟩
    · rw [if_pos ⟨hp, by rw [hl]; rfl⟩]
    · rw [hbefore hopen hl]
      simp only [hp, true_and]
    · rw [if_neg (by simp [hp])]
  · have hopen : s.linkState ≠ .idle := by rcases hl with hl | hl <;> simp [hl]
    have hnot : s.linkState ≠ .active := by rcases hl with hl | hl <;> simp [hl]
    cases hq : s.pendUnrelQ with
    | cons e rest =>
      rw [pullSendsUnreliableFirst e rest s hopen hq] at hexec
      cases hexec
      have htype : e.ptype = ptLinkControl := hinv.onlyLinkControl hnot e (by simp [hq])
      have heq := (List.mem_append.mp hframe).resolve_left (txFrame_not_mem_endEvents frame [e])
      exact .inl ⟨e.payload, by rw [htype] at heq; simpa [ptLinkControl] using heq⟩
    | nil =>
      have hrun : exec .txPull s = .next (pullAckOrNone s.begin) :=
        congrArg Host.Outcome.next (pullOp_ackOrNone (s := s.begin) hopen hq (.inl (hinv.onlyActive hnot).1))
      rw [hrun, hack, hbefore hopen hnot] at hexec
      split at hexec
      · next h =>
        cases hexec
        exact .inr ⟨h.2, h.1, by simpa [acknowledged] using hframe⟩
      · cases hexec
        simp [silent] at hframe

/-! ### PRUNE -/

/-- Settles O30: each acknowledgment by its distance from 6. -/
theorem cumulativeAckExamples : Obligations.CumulativeAckExamples := by
  intro s e2 e3 e4 e5 hq _ _ _ _ hnext
  have hprune (a : SeqNum) := prune_eq_by_distance a s (by simp [hq])
  simp only [hq, hnext] at hprune
  simp [hprune, endEvents]

/-! ### RTX_EXPIRE -/

/-- Settles O31. -/
theorem retransmissionTimeoutRequeues : Obligations.RetransmissionTimeoutRequeues := by
  refine fun s => ⟨fun harmed => ?_, fun hoff => ?_⟩
  · rw [exec, execRtxExpire, if_pos harmed]
    rfl
  · rw [exec, execRtxExpire, if_neg (by simp [hoff])]

theorem runOps_cons {i : Instr} {is : List Instr} {s t u : State} (hi : exec i s = .next t) (his : runOps is t = .next u) :
    runOps (i :: is) s = .next { u with out := t.out ++ u.out } := by
  rw [runOps, hi]
  dsimp only
  rw [his]

/-- As many pulls as there are entries with consecutive numbers at the head of the queue send these, unchanged. -/
theorem runOps_pulls (entries rest : List TxEntry) (s : State) (hopen : s.linkState ≠ .idle) (hunrel : s.pendUnrelQ = [])
    (hq : s.pendRelQ = entries ++ rest) (hwindow : s.unackQ.length + entries.length ≤ Config.window)
    (hseq : ∀ i (hi : i < entries.length), entries[i].seq = s.nextTxSeq + BitVec.ofNat 3 i) :
    ∃ t, runOps (List.replicate entries.length .txPull) s = .next t ∧ t.unackQ = s.unackQ ++ entries ∧
      t.pendRelQ = rest ∧ t.nextTxSeq = s.nextTxSeq + BitVec.ofNat 3 entries.length := by
  induction entries generalizing s with
  | nil => exact ⟨s.begin, rfl, by simp, hq, by simp⟩
  | cons e es ih =>
    rw [List.length_cons] at hwindow
    have hpull := pullSendsReliableWithinWindow e (es ++ rest) s hopen hunrel hq (by rw [Config.window] at hwindow; omega)
    have hsame : ({ e with seq := s.nextTxSeq } : TxEntry) = e := by
      rw [show s.nextTxSeq = e.seq by simpa using (hseq 0 (Nat.succ_pos _)).symm]
    rw [hsame] at hpull
    have hnext (i : Nat) (hi : i < es.length) : es[i].seq = s.nextTxSeq + 1 + BitVec.ofNat 3 i := by
      have := hseq (i + 1) (Nat.succ_lt_succ hi)
      rw [List.getElem_cons_succ] at this
      rw [this]
      bv_omega
    obtain ⟨t, hrun, hunack, hpend, hnum⟩ := ih
      { s with
        pendRelQ := es ++ rest
        unackQ := s.unackQ ++ [e]
        nextTxSeq := s.nextTxSeq + 1
        rtxTimerArmed := true
        ackPending := false
        out := [.timer .rtx (.restart s.params.rtxInterval), .txFrame (frameBytes s e.ptype true s.nextTxSeq e.payload)] }
      hopen hunrel rfl (by simp only [List.length_append, List.length_singleton]; omega) hnext
    refine ⟨_, runOps_cons hpull hrun, by simp [hunack], hpend, ?_⟩
    rw [List.length_cons]
    exact hnum.trans (by bv_omega)

/-- Settles O32: the timeout puts the entries in flight at the head of the queue and takes the counter back to the first of their
numbers, so the pulls give each the number it had. -/
theorem retransmissionRestoresTheWindow : Obligations.RetransmissionRestoresTheWindow := by
  intro s hinv hactive harmed hunrel
  have hexpire := (retransmissionTimeoutRequeues s).1 harmed
  obtain ⟨t, hrun, hunack, hpend, hnum⟩ := runOps_pulls s.unackQ s.pendRelQ
    { s with
      rtxTimerArmed := false
      pendRelQ := s.unackQ ++ s.pendRelQ
      unackQ := []
      nextTxSeq := s.nextTxSeq - BitVec.ofNat 3 s.unackQ.length
      out := [] }
    (by simp [hactive]) hunrel rfl (by simpa using hinv.window) (fun i hi => SeqsConsecutive.seq_getElem hinv.seqs hi)
  exact ⟨_, runOps_cons hexpire hrun, hunack, hpend, hnum.trans (BitVec.sub_add_cancel ..)⟩

/-! ### RELEASE -/

theorem takeEntry_none {id : Nat} {q : List RxEntry} (h : ∀ e ∈ q, e.id ≠ id) : takeEntry id q = none := by
  induction q with
  | nil => rfl
  | cons e es ih =>
    rw [List.forall_mem_cons] at h
    rw [takeEntry, if_neg h.1, ih h.2, Option.map_none]

/-- Ids rise, so one entry at most is named, and the others are those with another id. -/
theorem takeEntry_some {q : List RxEntry} (hids : q.Pairwise fun a b => a.id < b.id) {e : RxEntry} (he : e ∈ q) :
    takeEntry e.id q = some (e, q.filter fun f => f.id ≠ e.id) := by
  induction q with
  | nil => cases he
  | cons f fs ih =>
    obtain ⟨hlt, hids⟩ := List.pairwise_cons.mp hids
    rcases List.mem_cons.mp he with rfl | he
    · have hothers : fs.filter (fun g => g.id ≠ e.id) = fs :=
        List.filter_eq_self.mpr fun g hg => by simpa using (hlt g hg).ne'
      rw [takeEntry, if_pos rfl, List.filter_cons_of_neg (by simp), hothers]
    · have hne : f.id ≠ e.id := (hlt e he).ne
      rw [takeEntry, if_neg hne, ih hids he, List.filter_cons_of_pos (by simpa using hne)]
      rfl

/-- Settles O33. -/
theorem releaseFreesTheNamedEntry : Obligations.ReleaseFreesTheNamedEntry := by
  intro id s hinv hopen
  refine ⟨?_, fun hnone => ?_⟩
  · rintro e he rfl
    refine congrArg Host.Outcome.next ?_
    rw [releaseOp, if_neg (by exact hopen), takeEntry_some (by exact hinv.inboundIds) (by exact he)]
    rfl
  · refine congrArg Host.Outcome.next ?_
    rw [releaseOp, if_neg (by exact hopen), takeEntry_none (by exact hnone)]
    rfl

end Sys2Proof.Machine
end

section
/-! PROOF. The Link Controller's operations (43_link_controller R157 to R163, R180): LC_SEND, OPEN, CLOSE, SYNC_EXPIRE; O34 to O40. -/

namespace Sys2Proof.Machine

/-! ### LC_SEND, OPEN and CLOSE -/

/-- Settles O34. -/
theorem lcSendQueuesOrLosesTheMessage : Obligations.LcSendQueuesOrLosesTheMessage := by
  intro m ok answers s hpool
  rw [lcSend_answered m s ok answers hpool, List.append_assoc]
  rfl

/-- Settles O35. -/
theorem openStartsTheHandshake : Obligations.OpenStartsTheHandshake := by
  intro ok answers s hidle hpool
  refine congrArg Host.Outcome.next ?_
  have hsend := lcSendQueuesOrLosesTheMessage .sync ok answers { s.begin.resetRegs with linkState := .syncing } hpool
  rw [openOp, if_pos (by exact hidle), hsend]
  simp only [answer, startSyncTimer, State.emit, List.append_assoc]
  rfl

/-- Settles O36. -/
theorem misplacedOperationsOnlyAnswer : Obligations.MisplacedOperationsOnlyAnswer := by
  refine fun s => ⟨fun hopen => ?_, fun hidle => ?_, fun hidle id => ?_⟩ <;> refine congrArg Host.Outcome.next ?_
  · rw [openOp, if_neg (by exact hopen)]
    rfl
  · rw [closeOp, if_pos (by exact hidle)]
    rfl
  · rw [releaseOp, if_pos (by exact hidle)]
    rfl

/-- Settles O37. -/
theorem closeTearsDown : Obligations.CloseTearsDown := fun s hopen => congrArg Host.Outcome.next (closeOp_eq (s := s.begin) hopen)

/-- In IDLE, under the invariant, operations other than OPEN leave the state, one after the other. -/
theorem runOps_idle {ops : List Instr} (hops : Instr.openLink ∉ ops) {s u : State} (hinv : Inv s)
    (hidle : s.linkState = .idle) (hrun : runOps ops s = .next u) : u = { s with out := u.out } := by
  induction ops generalizing s u with
  | nil => cases hrun; rfl
  | cons i is ih =>
    obtain ⟨hi, his⟩ : Instr.openLink ≠ i ∧ Instr.openLink ∉ is := by simpa using hops
    cases hexec : exec i s with
    | next t =>
      have ht := onlyOpenActsInIdle i s t hinv hidle (Ne.symm hi) hexec
      cases hrest : runOps is t with
      | next v =>
        rw [runOps_cons hexec hrest] at hrun
        cases hrun
        have hv := ih his (hinv.exec hexec) (by rw [ht]; exact hidle) hrest
        rw [hv, ht]
      | fault r => simp [runOps, hexec, hrest] at hrun
      | refused r => simp [runOps, hexec, hrest] at hrun
    | fault r => simp [runOps, hexec] at hrun
    | refused r => simp [runOps, hexec] at hrun

/-- Settles O38: CLOSE leaves the reset values, and nothing but OPEN moves them. -/
theorem noExpiryBetweenCloseAndOpen : Obligations.NoExpiryBetweenCloseAndOpen := by
  intro s t u ops hopen hclose hops hrun
  obtain rfl := Host.Outcome.next.inj ((closeTearsDown s hopen).symm.trans hclose)
  have hu := runOps_idle hops ((inv_resetRegs s).setOut _) rfl hrun
  exact ⟨(retransmissionTimeoutRequeues u).2 (by rw [hu]; rfl), by rw [exec, execSyncExpire, if_neg (by rw [hu]; simp)]⟩

/-! ### SYNC_EXPIRE -/

/-- The notification of a failed synchronisation, when the limit is reached (R163). -/
def failEvents (s : State) : List Event := if s.syncRetry < s.params.syncRetryLimit then [] else [.notify .syncFail]

/-- The retry counter after an expiry (R163). -/
def nextRetry (s : State) : Nat := if s.syncRetry < s.params.syncRetryLimit then s.syncRetry + 1 else 0

theorem countSyncRetry_eq (s : State) :
    countSyncRetry s = { s with syncRetry := nextRetry s, out := s.out ++ failEvents s } := by
  unfold countSyncRetry nextRetry failEvents
  split <;> simp [State.emit]

theorem exec_syncExpire {s : State} (harmed : s.syncTimerArmed = true) :
    exec .syncExpire s = .next (restartSyncTimer (lcSend .sync
      { s with syncRetry := nextRetry s, out := failEvents s })) := by
  rw [exec, execSyncExpire, if_pos harmed, syncExpireOp, countSyncRetry_eq]
  rfl

/-- Settles O39. -/
theorem syncTimeoutRetriesOrNotifies : Obligations.SyncTimeoutRetriesOrNotifies := by
  refine fun ok answers s => ⟨fun harmed hpool => ?_, fun hoff => ?_⟩
  · have hsend := lcSendQueuesOrLosesTheMessage .sync ok answers
      { s with syncRetry := nextRetry s, out := failEvents s } hpool
    rw [exec_syncExpire harmed, hsend]
    simp [restartSyncTimer, State.emit, lcPayload, lcPair, nextRetry, failEvents, sendEvents, harmed]
  · rw [exec, execSyncExpire, if_neg (by simp [hoff])]

/-- One expiry, whatever the pool answers. -/
theorem syncExpire_step {s : State} (harmed : s.syncTimerArmed = true) :
    ∃ t, exec .syncExpire s = .next t ∧ t.syncTimerArmed = true ∧ t.params = s.params ∧ t.syncRetry = nextRetry s ∧
      t.out.count (.notify .syncFail) = (failEvents s).count (.notify .syncFail) := by
  obtain ⟨ok, rest, draws, -, hsend⟩ := lcSend_spec .sync { s with syncRetry := nextRetry s, out := failEvents s }
  refine ⟨_, exec_syncExpire harmed, rfl, ?_, ?_, ?_⟩ <;> rw [hsend]
  · rfl
  · rfl
  · cases ok <;> simp [restartSyncTimer, State.emit]

/-- Below the limit every expiry counts, and none notifies. -/
theorem runOps_syncExpire_below (k : Nat) {s : State} (harmed : s.syncTimerArmed = true)
    (hk : s.syncRetry + k ≤ s.params.syncRetryLimit) :
    ∃ t, runOps (List.replicate k .syncExpire) s = .next t ∧ t.syncRetry = s.syncRetry + k ∧
      t.out.count (.notify .syncFail) = 0 := by
  induction k generalizing s with
  | zero => exact ⟨s.begin, rfl, rfl, rfl⟩
  | succ k ih =>
    have hlt : s.syncRetry < s.params.syncRetryLimit := by omega
    obtain ⟨t, hexec, ht, hparams, hretry, hcount⟩ := syncExpire_step harmed
    rw [nextRetry, if_pos hlt] at hretry
    rw [failEvents, if_pos hlt] at hcount
    obtain ⟨u, hrun, hu, hnone⟩ := ih ht (by rw [hretry, hparams]; omega)
    refine ⟨_, runOps_cons hexec hrun, ?_, ?_⟩
    · exact hu.trans (by omega)
    · rw [List.count_append, hcount, hnone]
      rfl

/-- The expiry at the limit is the one that notifies. -/
theorem runOps_syncExpire_limit (k : Nat) {s : State} (harmed : s.syncTimerArmed = true)
    (hk : s.syncRetry + k = s.params.syncRetryLimit) :
    ∃ t, runOps (List.replicate (k + 1) .syncExpire) s = .next t ∧ t.syncRetry = 0 ∧
      t.out.count (.notify .syncFail) = 1 := by
  induction k generalizing s with
  | zero =>
    have hlimit : ¬ s.syncRetry < s.params.syncRetryLimit := by omega
    obtain ⟨t, hexec, -, -, hretry, hcount⟩ := syncExpire_step harmed
    rw [nextRetry, if_neg hlimit] at hretry
    rw [failEvents, if_neg hlimit] at hcount
    exact ⟨_, runOps_cons hexec rfl, hretry, by simpa using hcount⟩
  | succ k ih =>
    have hlt : s.syncRetry < s.params.syncRetryLimit := by omega
    obtain ⟨t, hexec, ht, hparams, hretry, hcount⟩ := syncExpire_step harmed
    rw [nextRetry, if_pos hlt] at hretry
    rw [failEvents, if_pos hlt] at hcount
    obtain ⟨u, hrun, hu, hone⟩ := ih ht (by rw [hretry, hparams]; omega)
    refine ⟨_, runOps_cons hexec hrun, hu, ?_⟩
    rw [List.count_append, hcount, hone]
    rfl

/-- Settles O40. -/
theorem syncFailureComesEveryLimitPlusOne : Obligations.SyncFailureComesEveryLimitPlusOne := by
  intro s harmed hzero
  refine ⟨fun k hk => ?_, runOps_syncExpire_limit _ harmed (by omega)⟩
  obtain ⟨t, hrun, hretry, hnone⟩ := runOps_syncExpire_below k harmed (by omega)
  exact ⟨t, hrun, by omega, List.count_eq_zero.mp hnone⟩

end Sys2Proof.Machine
end

section
/-! PROOF. Link-control messages as rows (43_link_controller R165 to R179): what LC_RX makes of each message after its frame is
committed; O41 to O47. -/

namespace Sys2Proof.Machine

/-! ### A message row -/

/-- What committing a message's frame leaves: all but the acknowledgment state, the pool's answers and the output. -/
theorem messageCommitted_same (n : Nat) (answers : List Bool) (s : State) :
    let p := messageCommitted n answers s
    p.linkState = s.linkState ∧ p.pendUnrelQ = s.pendUnrelQ ∧ p.params = s.params ∧ p.crcTxEnable = s.crcTxEnable ∧
      p.poolAnswers = answers := by
  obtain ⟨k, armed, events, hshape⟩ := messageCommitted_shape n answers s
  rw [hshape]
  exact ⟨rfl, rfl, rfl, rfl, rfl⟩

/-- The row of a known message, in any open state between two frames. -/
theorem exec_message {i : Instr} {m : LcMsg} {params : List Byte}
    (hrow : ∀ s, exec i s = receiveMessage (lcPair m ++ params) s) {answers : List Bool} {s : State}
    (h : MessageArrives (params.length + 2) answers s) :
    exec i s = .next
      { lcRx (lcPair m ++ params) (messageCommitted (params.length + 2) answers s) with
        rxState := .waitFrameStart
        out := (lcRx (lcPair m ++ params) (messageCommitted (params.length + 2) answers s)).out ++
          [.pool (.release (lcPair m ++ params))] } := by
  have hlen : (lcPair m ++ params).length = params.length + 2 := by cases m <;> rfl
  rw [hrow, ← hlen]
  exact receiveMessage_eq (hlen ▸ h)

section
variable (params : List Byte) (s : State)

theorem lcRx_sync : lcRx (lcPair .sync ++ params) s = rxSync s := rfl
theorem lcRx_syncRsp : lcRx (lcPair .syncRsp ++ params) s = rxSyncRsp s := rfl
theorem lcRx_config : lcRx (lcPair .config ++ params) s = rxConfig s := rfl
theorem lcRx_configRsp : lcRx (lcPair .configRsp ++ params) s = rxConfigRsp (lcPair .configRsp ++ params) s := rfl

end

/-- LC_SEND after a message's frame was committed, the answer to it being the next one. -/
theorem lcSend_committed (m : LcMsg) (n : Nat) (ok : Bool) (answers : List Bool) (s : State) :
    lcSend m (messageCommitted n (ok :: answers) s) =
      { messageCommitted n answers s with
        pendUnrelQ := s.pendUnrelQ ++ sent ok (lcPayload s.params m)
        out := (messageCommitted n answers s).out ++ sendEvents s ok (lcPayload s.params m) } := by
  obtain ⟨-, hq, hparams, -, hpool⟩ := messageCommitted_same n answers s
  rw [messageCommitted_answers n (ok :: answers) answers s, lcSendQueuesOrLosesTheMessage m ok answers _ rfl]
  simp [sendEvents, hq, hparams, hpool]

/-- Settles O41. -/
theorem syncIsAnswered : Obligations.SyncIsAnswered := by
  intro params ok answers s h
  dsimp only
  rw [exec_message (m := .sync) (fun _ => rfl) h, lcRx_sync, rxSync, lcSend_committed]
  rfl

/-- Settles O42. -/
theorem syncRspStartsConfiguring : Obligations.SyncRspStartsConfiguring := by
  intro params ok answers s h hsyncing
  obtain ⟨hlink, -⟩ := messageCommitted_same (params.length + 2) (ok :: answers) s
  obtain ⟨-, hq, hparams, -, hpool⟩ := messageCommitted_same (params.length + 2) answers s
  dsimp only
  rw [exec_message (m := .syncRsp) (fun _ => rfl) h, lcRx_syncRsp, rxSyncRsp, if_pos (hlink.trans hsyncing),
    messageCommitted_answers (params.length + 2) (ok :: answers) answers s,
    lcSendQueuesOrLosesTheMessage .config ok answers _ rfl]
  simp [startRtxTimer, stopSyncTimer, State.emit, sendEvents, lcPayload, lcPair, hparams, hq, hpool]

/-- Settles O43. -/
theorem configIsAnswered : Obligations.ConfigIsAnswered := by
  intro params ok ok' answers s config configRsp
  refine ⟨fun h hl => ?_, fun h hl => ?_⟩ <;> dsimp only <;>
    rw [exec_message (m := .config) (fun _ => rfl) h, lcRx_config, rxConfig]
  · obtain ⟨hlink, -⟩ := messageCommitted_same (params.length + 2) (ok :: ok' :: answers) s
    obtain ⟨-, -, hparams, -, hpool⟩ := messageCommitted_same (params.length + 2) answers s
    simp only [hlink, hl]
    rw [lcSend_committed, messageCommitted_answers (params.length + 2) (ok' :: answers) answers s,
      lcSendQueuesOrLosesTheMessage .config ok' answers _ rfl]
    simp [sendEvents, lcPayload, lcPair, config, configRsp, hparams, hpool]
  · obtain ⟨hlink, -⟩ := messageCommitted_same (params.length + 2) (ok :: answers) s
    simp only [hlink, hl]
    rw [lcSend_committed]
    rfl

theorem cfgCrcEnabled_eq (cfg : Byte) : cfgCrcEnabled cfg = (cfg &&& 0x10 != 0) := by
  revert cfg; decide

/-- Settles O44. -/
theorem configRspActivatesTheLink : Obligations.ConfigRspActivatesTheLink := by
  intro params answers s h hconfiguring
  obtain ⟨hlink, -, -, hcrc, -⟩ := messageCommitted_same (params.length + 2) answers s
  dsimp only
  rw [exec_message (m := .configRsp) (fun _ => rfl) h, lcRx_configRsp, rxConfigRsp, if_pos (hlink.trans hconfiguring)]
  cases params with
  | nil =>
    refine congrArg Host.Outcome.next ?_
    simp only [List.length_nil] at hcrc ⊢
    simp [lcPair, State.emit, hcrc]
  | cons cfg rest =>
    refine congrArg Host.Outcome.next ?_
    simp [lcPair, State.emit, cfgCrcEnabled_eq]

/-- Settles O45: in the five cells LC_RX does nothing. -/
theorem misplacedMessagesAreIgnored : Obligations.MisplacedMessagesAreIgnored := by
  intro params answers s i a b h hm
  obtain ⟨hlink, -⟩ := messageCommitted_same (params.length + 2) answers s
  simp only [List.mem_cons, Prod.mk.injEq, List.not_mem_nil, or_false] at hm
  dsimp only
  obtain ⟨rfl, rfl, rfl, hl⟩ | ⟨rfl, rfl, rfl, hl⟩ | ⟨rfl, rfl, rfl, hl⟩ | ⟨rfl, rfl, rfl, hl⟩ | ⟨rfl, rfl, rfl, hl⟩ := hm
  · rw [exec_message (m := .syncRsp) (fun _ => rfl) h, lcRx_syncRsp, rxSyncRsp, if_neg (by simp [hlink, hl])]
    rfl
  · rw [exec_message (m := .syncRsp) (fun _ => rfl) h, lcRx_syncRsp, rxSyncRsp, if_neg (by simp [hlink, hl])]
    rfl
  · rw [exec_message (m := .config) (fun _ => rfl) h, lcRx_config, rxConfig]
    simp only [hlink, hl]
    rfl
  · rw [exec_message (m := .configRsp) (fun _ => rfl) h, lcRx_configRsp, rxConfigRsp, if_neg (by simp [hlink, hl])]
    rfl
  · rw [exec_message (m := .configRsp) (fun _ => rfl) h, lcRx_configRsp, rxConfigRsp, if_neg (by simp [hlink, hl])]
    rfl

/-- Settles O46. -/
theorem unknownMessageIsDiagnosed : Obligations.UnknownMessageIsDiagnosed := by
  intro payload answers s hwf h
  simp only [Instr.wf, Bool.and_eq_true, Option.isNone_iff_eq_none] at hwf
  have hunknown : lcRx payload (messageCommitted payload.length answers s) =
      rxUnknown (messageCommitted payload.length answers s) := by simp only [lcRx, hwf.1]
  dsimp only
  rw [show exec (.lcUnknown payload) s = receiveMessage payload s from rfl, receiveMessage_eq h, hunknown]
  simp [rxUnknown, State.emit]

/-! ### The handshake -/

/-- Settles O47: the three steps in turn; the invariant after the first two makes the last message arrive. -/
theorem handshakeScenario : Obligations.HandshakeScenario := by
  intro answers s h hsyncing hunrel
  have hrsp := syncRspStartsConfiguring [] true (true :: answers) s h hsyncing
  obtain ⟨-, -, hparams, -, hpool⟩ := messageCommitted_same 2 (true :: answers) s
  obtain ⟨t, ht⟩ : ∃ t, exec (.lcSyncRsp []) s = .next t := ⟨_, hrsp⟩
  have heq := Host.Outcome.next.inj (ht.symm.trans hrsp)
  have htlink : t.linkState = .configuring := by rw [heq]
  have htq : t.pendUnrelQ = [lcEntry (0x03 :: 0xFC :: s.params.cfgTx.toList)] := by rw [heq]; simp [hunrel, sent]
  have htrx : t.rxState = .waitFrameStart := by rw [heq]
  have htpool : t.poolAnswers = true :: answers := by rw [heq]; exact hpool
  have hpull := pullSendsUnreliableFirst _ [] t (by simp [htlink]) htq
  obtain ⟨u, hu⟩ : ∃ u, exec .txPull t = .next u := ⟨_, hpull⟩
  have hueq := Host.Outcome.next.inj (hu.symm.trans hpull)
  have hulink : u.linkState = .configuring := by rw [hueq]; exact htlink
  have harrives : MessageArrives (([0x10] : List Byte).length + 2) answers u :=
    { inv := (h.inv.exec ht).exec hu
      isOpen := by simp [hulink]
      boundary := .inr (by rw [hueq]; exact htrx)
      fits := by decide
      pool := by rw [hueq]; exact htpool }
  have hactive := configRspActivatesTheLink [0x10] answers u harrives hulink
  exact ⟨t, u, _, ht, htlink, hu, by rw [hueq]; simp [lcEntry, ptLinkControl], hulink, hactive, rfl, rfl, by simp⟩

end Sys2Proof.Machine
end

section
/-! PROOF. The Packet Pool's answers (20_memory R46; log entry 1): an operation that takes given answers does the same when the free
values stand for them; O53 and O54. -/

namespace Sys2Proof.Machine

/-- Settles O53. -/
theorem unansweredPoolCallsTakeTheFreeValue : Obligations.UnansweredPoolCallsTakeTheFreeValue := by
  intro n s hpool
  simp [acquire, State.emit, hpool]

/-! ### Given and free answers -/

/-- The first `n` free values from the draw `d` on. -/
def freeAnswers (d n : Nat) : List Bool := (List.range n).map fun k => Config.poolAnswer (d + k)

/-- The answers left in the state are the last of those `n` values. -/
def Told (d n : Nat) (s : State) : Prop := s.poolDraws = d ∧ ∃ k, s.poolAnswers = (freeAnswers d n).drop k

/-- The same state with nothing told: the counter stands at the next of those values. -/
def untold (d n : Nat) (s : State) : State :=
  { s with poolAnswers := [], poolDraws := d + (n - s.poolAnswers.length) }

/-- While told answers remain after `f`, it does the same untold. -/
def Stands (d n : Nat) (f : State → State) (s : State) : Prop :=
  (f s).poolAnswers ≠ [] →
    s.poolAnswers ≠ [] ∧ (Told d n s → Told d n (f s) ∧ f (untold d n s) = untold d n (f s))

/-- `f` neither reads nor writes the pool's answers. -/
def PoolBlind (f : State → State) (s : State) : Prop :=
  ∀ answers draws, f { s with poolAnswers := answers, poolDraws := draws } =
    { f s with poolAnswers := answers, poolDraws := draws }

section
variable {d n : Nat} {f g : State → State} {s : State}

theorem PoolBlind.same (h : PoolBlind f s) :
    (f s).poolAnswers = s.poolAnswers ∧ (f s).poolDraws = s.poolDraws := by
  have heq : f s = { f s with poolAnswers := s.poolAnswers, poolDraws := s.poolDraws } := h s.poolAnswers s.poolDraws
  constructor
  · rw [heq]
  · rw [heq]

theorem PoolBlind.stands (h : PoolBlind f s) : Stands d n f s := by
  obtain ⟨hanswers, hdraws⟩ := h.same
  intro hleft
  refine ⟨hanswers ▸ hleft, fun ⟨hd, hk⟩ => ⟨⟨hdraws.trans hd, hanswers ▸ hk⟩, ?_⟩⟩
  rw [untold, h, untold, hanswers]

theorem PoolBlind.comp (hf : PoolBlind f s) (hg : PoolBlind g (f s)) : PoolBlind (fun s => g (f s)) s :=
  fun answers draws => by simp only [hf answers draws, hg answers draws]

theorem Stands.comp (hf : Stands d n f s) (hg : Stands d n g (f s)) : Stands d n (fun s => g (f s)) s := by
  intro hleft
  obtain ⟨hmid, hg⟩ := hg hleft
  obtain ⟨hfirst, hf⟩ := hf hmid
  refine ⟨hfirst, fun htold => ?_⟩
  obtain ⟨htold, hfeq⟩ := hf htold
  obtain ⟨htold, hgeq⟩ := hg htold
  exact ⟨htold, by simp only [hfeq, hgeq]⟩

/-- A function that is `g` in a state and in the state with other answers. -/
theorem Stands.congr (hg : Stands d n g s) (hs : f s = g s) (hu : f (untold d n s) = g (untold d n s)) :
    Stands d n f s := by
  rw [Stands, hs, hu]
  exact hg

theorem Stands.refl : Stands d n (fun s => s) s := PoolBlind.stands fun _ _ => rfl

end

theorem drop_freeAnswers {d n k : Nat} (hk : k < n) :
    (freeAnswers d n).drop k = Config.poolAnswer (d + k) :: (freeAnswers d n).drop (k + 1) := by
  have hlen : k < (freeAnswers d n).length := by simpa [freeAnswers] using hk
  rw [List.drop_eq_getElem_cons hlen]
  simp [freeAnswers]

theorem length_drop_freeAnswers (d n k : Nat) : ((freeAnswers d n).drop k).length = n - k := by
  simp [freeAnswers]

/-- The state after a call for a buffer, by the answer taken from the list. -/
theorem acquire_told {d n : Nat} {s : State} (htold : Told d n s) (hleft : s.poolAnswers ≠ []) (size : Nat) :
    ∃ ok t, acquire size s = (ok, t) ∧ Told d n t ∧ acquire size (untold d n s) = (ok, untold d n t) := by
  obtain ⟨hd, k, hk⟩ := htold
  have hlt : k < n := by
    by_contra hge
    exact hleft (List.eq_nil_of_length_eq_zero (by rw [hk, length_drop_freeAnswers]; omega))
  have hlen : n - s.poolAnswers.length = k := by rw [hk, length_drop_freeAnswers]; omega
  have hnext : s.poolAnswers = Config.poolAnswer (d + k) :: (freeAnswers d n).drop (k + 1) :=
    hk.trans (drop_freeAnswers hlt)
  refine ⟨_, _, acquire_answered size s _ _ hnext, ⟨hd, k + 1, rfl⟩, ?_⟩
  rw [unansweredPoolCallsTakeTheFreeValue size (untold d n s) rfl]
  have hafter : d + k + 1 = d + (n - ((freeAnswers d n).drop (k + 1)).length) := by
    rw [length_drop_freeAnswers]
    omega
  simp only [untold, hlen, hafter]

/-- A call for a buffer and what follows each answer. -/
def asking (size : Nat) (granted refused : State → State) (s : State) : State :=
  if (acquire size s).1 then granted (acquire size s).2 else refused (acquire size s).2

theorem acquire_leaves_nil {size : Nat} {s : State} (h : s.poolAnswers = []) : (acquire size s).2.poolAnswers = [] := by
  rw [unansweredPoolCallsTakeTheFreeValue size s h]
  exact h

theorem stands_asking {d n : Nat} {granted refused : State → State} (hg : ∀ s, Stands d n granted s)
    (hr : ∀ s, Stands d n refused s) (size : Nat) (s : State) : Stands d n (asking size granted refused) s := by
  have hone (ok : Bool) : ∀ s, Stands d n (fun s => if ok then granted s else refused s) s := by
    cases ok
    · exact hr
    · exact hg
  have hasks (ok : Bool) (t : State) (u : State) (h : acquire size u = (ok, t)) :
      asking size granted refused u = if ok then granted t else refused t := by rw [asking, h]
  intro hleft
  have hanswers : s.poolAnswers ≠ [] := by
    intro hnone
    have hstate : asking size granted refused s =
        if (acquire size s).1 then granted (acquire size s).2 else refused (acquire size s).2 := rfl
    rw [hstate] at hleft
    exact (hone _ _ hleft).1 (acquire_leaves_nil hnone)
  refine ⟨hanswers, fun htold => ?_⟩
  obtain ⟨ok, t, hacquire, htold, huntold⟩ := acquire_told htold hanswers size
  rw [hasks ok t s hacquire] at hleft ⊢
  rw [hasks ok _ _ huntold]
  exact (hone ok t hleft).2 htold

/-! ### What does not ask the pool -/

theorem poolBlind_freeRxBuffer (s : State) : PoolBlind freeRxBuffer s := fun _ _ => by
  simp [freeRxBuffer_eq, heldEvents]

theorem poolBlind_rxReset (target : RxState) (s : State) : PoolBlind (rxReset target) s := fun _ _ => by
  simp [rxReset_eq, heldEvents]

theorem poolBlind_dropFrame (code : ErrCode) (target : RxState) (s : State) : PoolBlind (dropFrame code target) s :=
  fun _ _ => by simp [dropFrame_eq, heldEvents]

theorem poolBlind_rejectSubmit (code : ErrCode) (payload : List Byte) (owned : Bool) (s : State) :
    PoolBlind (rejectSubmit code payload owned) s := fun _ _ => by
  simp [rejectSubmit_eq]

theorem poolBlind_enqueueSubmit (e : TxEntry) (s : State) : PoolBlind (enqueueSubmit e) s := fun _ _ => by
  unfold enqueueSubmit
  split <;> rfl

theorem poolBlind_prune (a : SeqNum) (s : State) : PoolBlind (prune a) s := fun _ _ => by
  simp only [prune]
  cases h : ackIndex s.nextTxSeq a s.unackQ.length with
  | none => by_cases hq : s.unackQ = [] <;> simp [hq, State.emit, stopRtxTimer]
  | some j =>
    simp only [releaseAll_eq]
    split <;> simp [State.emit, stopRtxTimer]

theorem poolBlind_commitFrame (f : HdrFields) (s : State) : PoolBlind (commitFrame f) s := fun answers draws => by
  rw [commitFrame_eq, commitFrame_eq]
  exact poolBlind_prune f.ack
    { s with
      expectedRxSeq := if f.reliable then f.seq + 1 else s.expectedRxSeq
      ackPending := s.ackPending || f.reliable
      lastPeerAck := f.ack } answers draws

theorem poolBlind_pullAckOrNone (s : State) : PoolBlind pullAckOrNone s := fun _ _ => by
  rw [pullAckOrNone_eq, pullAckOrNone_eq]
  dsimp only
  split <;> rfl

theorem poolBlind_pullOp (s : State) : PoolBlind pullOp s := fun answers draws => by
  unfold pullOp
  dsimp only
  split
  · rfl
  split
  · simp only [pullUnreliable, releaseTx_eq]
    rfl
  split
  · split
    · rfl
    · exact poolBlind_pullAckOrNone s answers draws
  · exact poolBlind_pullAckOrNone s answers draws

theorem poolBlind_releaseOp (id : Nat) (s : State) : PoolBlind (releaseOp id) s := fun _ _ => by
  unfold releaseOp
  dsimp only
  split
  · rfl
  split <;> rfl

theorem poolBlind_closeOp (s : State) : PoolBlind closeOp s := fun _ _ => by
  by_cases hidle : s.linkState = .idle
  · rw [closeOp, closeOp, if_pos (by exact hidle), if_pos hidle]
    rfl
  · rw [closeOp_eq (by exact hidle), closeOp_eq hidle]
    rfl

theorem poolBlind_countSyncRetry (s : State) : PoolBlind countSyncRetry s := fun _ _ => by
  rw [countSyncRetry_eq, countSyncRetry_eq]
  rfl

/-! ### What asks it -/

section
variable {d n : Nat}

theorem lcSend_eq_asking (m : LcMsg) (s : State) :
    lcSend m s = asking (lcPayload s.params m).length
      (fun t => { t with pendUnrelQ := enqTail t.pendUnrelQ (lcEntry (lcPayload t.params m)) })
      (fun t => t.emit (.diag .allocationFailure)) s := by
  obtain ⟨ok, rest, draws, h⟩ := acquire_spec (lcPayload s.params m).length s
  rw [lcSend, asking, h]
  cases ok <;> rfl

theorem stands_lcSend (m : LcMsg) (s : State) : Stands d n (lcSend m) s :=
  (stands_asking (fun _ => PoolBlind.stands fun _ _ => rfl) (fun _ => PoolBlind.stands fun _ _ => rfl)
    (lcPayload s.params m).length s).congr (lcSend_eq_asking m s) (lcSend_eq_asking m (untold d n s))

theorem stands_lcRx (payload : List Byte) (s : State) : Stands d n (lcRx payload) s := by
  unfold lcRx
  split
  · exact stands_lcSend _ s
  · by_cases hl : s.linkState = .syncing
    · have hbegun : PoolBlind (fun s => { startRtxTimer (stopSyncTimer s) with linkState := .configuring }) s :=
        fun _ _ => rfl
      exact (hbegun.stands.comp (stands_lcSend .config _)).congr (if_pos hl) (if_pos hl)
    · exact Stands.refl.congr (if_neg hl) (if_neg hl)
  · cases hl : s.linkState with
    | configuring =>
      exact ((stands_lcSend .configRsp s).comp (stands_lcSend .config _)).congr (by simp only [rxConfig, hl])
        (by simp only [rxConfig, untold, hl])
    | active =>
      exact (stands_lcSend .configRsp s).congr (by simp only [rxConfig, hl]) (by simp only [rxConfig, untold, hl])
    | syncing => exact Stands.refl.congr (by simp only [rxConfig, hl]) (by simp only [rxConfig, untold, hl])
    | idle => exact Stands.refl.congr (by simp only [rxConfig, hl]) (by simp only [rxConfig, untold, hl])
  · refine PoolBlind.stands fun _ _ => ?_
    unfold rxConfigRsp
    dsimp only
    split <;> rfl
  · exact PoolBlind.stands fun _ _ => rfl

theorem stands_classify (ptype : PType) (s : State) : Stands d n (classify ptype) s := by
  by_cases hack : ptype = ptAck
  · exact (poolBlind_freeRxBuffer s).stands.congr (if_pos hack) (if_pos hack)
  by_cases hlc : ptype = ptLinkControl
  · have heq (t : State) : classify ptype t = freeRxBuffer (lcRx t.rxBuf t) := by
      rw [classify, if_neg hack, if_pos hlc]
    exact ((stands_lcRx s.rxBuf s).comp (poolBlind_freeRxBuffer _).stands).congr (heq s) (heq _)
  · have heq (t : State) : classify ptype t = deliverUp ptype t := by rw [classify, if_neg hack, if_neg hlc]
    exact (PoolBlind.stands fun _ _ => rfl : Stands d n (deliverUp ptype) s).congr (heq s) (heq _)

theorem stands_deliver (s : State) : Stands d n deliver s :=
  (((poolBlind_commitFrame (hdrFields s.rxHdr) s).stands.comp (stands_classify (hdrType s.rxHdr) _)).comp
    (poolBlind_rxReset .waitDelimiter _).stands).congr rfl rfl

theorem stands_payloadComplete (s : State) : Stands d n payloadComplete s := by
  by_cases hcrc : (hdrFields s.rxHdr).crcPresent = true
  · have hawaits : PoolBlind (fun s => { s with rxState := .waitCrc, rxCrc := [] }) s := fun _ _ => rfl
    exact hawaits.stands.congr (if_pos hcrc) (if_pos hcrc)
  · exact (stands_deliver s).congr (if_neg hcrc) (if_neg hcrc)

theorem stands_headerAccepted (len : PLen) (s : State) : Stands d n (headerAccepted len) s := by
  have hbegun : PoolBlind (fun s => { s with rxLen := len, rxHeld := true, rxBuf := [] }) s := fun _ _ => rfl
  by_cases hlen : len = 0
  · exact (hbegun.stands.comp (stands_payloadComplete _)).congr (if_pos hlen) (if_pos hlen)
  · have hawaits : PoolBlind
        (fun s => { s with rxLen := len, rxHeld := true, rxBuf := [], rxState := .waitPayload }) s := fun _ _ => rfl
    exact hawaits.stands.congr (if_neg hlen) (if_neg hlen)

theorem stands_headerComplete (s : State) : Stands d n headerComplete s := by
  by_cases hsum : checksumOk s.rxHdr = true
  case neg =>
    have hsum : checksumOk s.rxHdr = false := by simpa using hsum
    exact (poolBlind_dropFrame .headerChecksumError .waitDelimiter s).stands.congr
      (headerComplete_badChecksum hsum) (headerComplete_badChecksum (s := untold d n s) hsum)
  by_cases hgate : Gate s
  case neg =>
    exact (poolBlind_dropFrame .linkNotActive .waitDelimiter s).stands.congr
      (headerComplete_notActive hsum hgate) (headerComplete_notActive (s := untold d n s) hsum hgate)
  by_cases hseq : InSequence s
  case neg =>
    exact (poolBlind_dropFrame .outOfOrderSequence .waitDelimiter s).stands.congr
      (headerComplete_outOfOrder hsum hgate hseq) (headerComplete_outOfOrder (s := untold d n s) hsum hgate hseq)
  have heq {t : State} (hsum : checksumOk t.rxHdr = true) (hgate : Gate t) (hseq : InSequence t) :
      headerComplete t = asking ((hdrFields t.rxHdr).len.toNat + Config.hdrLen) (headerAccepted (hdrFields t.rxHdr).len)
        (dropFrame .allocationFailure .waitDelimiter) t := by
    have hpassed : ¬ (hdrType t.rxHdr ≠ ptLinkControl ∧ t.linkState ≠ .active) := by
      rw [← not_or]
      exact not_not.mpr hgate
    have hnumber : ¬ ((hdrFields t.rxHdr).reliable = true ∧ (hdrFields t.rxHdr).seq ≠ t.expectedRxSeq) :=
      fun ⟨hrel, hne⟩ => hne (hseq hrel)
    obtain ⟨ok, rest, draws, h⟩ := acquire_spec ((hdrFields t.rxHdr).len.toNat + Config.hdrLen) t
    simp only [headerComplete, hsum, Bool.not_true, Bool.false_eq_true, if_false, if_neg hpassed, if_neg hnumber]
    rw [asking, h]
    cases ok <;> rfl
  exact (stands_asking (stands_headerAccepted _) (fun t => (poolBlind_dropFrame _ _ t).stands) _ s).congr
    (heq hsum hgate hseq) (heq (t := untold d n s) hsum hgate hseq)

theorem stands_headerByte (v : Byte) (s : State) : Stands d n (headerByte v) s := by
  have happend : PoolBlind (fun s => { s with rxHdr := s.rxHdr ++ [v] }) s := fun _ _ => rfl
  by_cases hfull : (s.rxHdr ++ [v]).length = Config.hdrLen
  · exact (happend.stands.comp (stands_headerComplete _)).congr (if_pos hfull) (if_pos hfull)
  · exact happend.stands.congr (if_neg hfull) (if_neg hfull)

theorem stands_payloadByte (v : Byte) (s : State) : Stands d n (payloadByte v) s := by
  have happend : PoolBlind (fun s => { s with rxBuf := s.rxBuf ++ [v] }) s := fun _ _ => rfl
  by_cases hfull : (s.rxBuf ++ [v]).length = s.rxLen.toNat
  · exact (happend.stands.comp (stands_payloadComplete _)).congr (if_pos hfull) (if_pos hfull)
  · exact happend.stands.congr (if_neg hfull) (if_neg hfull)

theorem stands_crcComplete (s : State) : Stands d n crcComplete s := by
  by_cases hwrong : trailerValue (s.rxCrc.getD 0 0) (s.rxCrc.getD 1 0) ≠ crc16 (s.rxHdr ++ s.rxBuf)
  · exact (poolBlind_dropFrame .crcMismatch .waitDelimiter s).stands.congr (if_pos hwrong) (if_pos hwrong)
  · exact (stands_deliver s).congr (if_neg hwrong) (if_neg hwrong)

theorem stands_crcTrailerByte (v : Byte) (s : State) : Stands d n (crcTrailerByte v) s := by
  have happend : PoolBlind (fun s => { s with rxCrc := s.rxCrc ++ [v] }) s := fun _ _ => rfl
  by_cases hfull : (s.rxCrc ++ [v]).length = Config.crcLen
  · exact (happend.stands.comp (stands_crcComplete _)).congr (if_pos hfull) (if_pos hfull)
  · exact happend.stands.congr (if_neg hfull) (if_neg hfull)

theorem stands_bodyByte (v : Byte) (s : State) : Stands d n (bodyByte v) s := by
  cases hr : s.rxState with
  | waitHeader =>
    exact (stands_headerByte v s).congr (by simp only [bodyByte, hr]) (by simp only [bodyByte, untold, hr])
  | waitPayload =>
    exact (stands_payloadByte v s).congr (by simp only [bodyByte, hr]) (by simp only [bodyByte, untold, hr])
  | waitCrc =>
    exact (stands_crcTrailerByte v s).congr (by simp only [bodyByte, hr]) (by simp only [bodyByte, untold, hr])
  | waitDelimiter => exact Stands.refl.congr (by simp only [bodyByte, hr]) (by simp only [bodyByte, untold, hr])
  | waitFrameStart => exact Stands.refl.congr (by simp only [bodyByte, hr]) (by simp only [bodyByte, untold, hr])

/-- What a decoder result does inside a frame. -/
theorem stands_frameByte (b : Byte) (s : State) : Stands d n (frameByte b) s := by
  rcases hres : decodeByte s.escState b with ⟨result, escAfter⟩
  have hdecoded : PoolBlind (fun s => { s with escState := escAfter }) s := fun _ _ => rfl
  cases result with
  | nothing =>
    exact hdecoded.stands.congr (by simp only [frameByte, hres]) (by simp only [frameByte, untold, hres])
  | byte v =>
    exact (hdecoded.stands.comp (stands_bodyByte v _)).congr (by simp only [frameByte, hres])
      (by simp only [frameByte, untold, hres])
  | error =>
    exact (hdecoded.stands.comp (poolBlind_dropFrame .framingError .waitDelimiter _).stands).congr
      (by simp only [frameByte, hres]) (by simp only [frameByte, untold, hres])
  | delim =>
    exact (hdecoded.stands.comp (poolBlind_dropFrame .framingError .waitFrameStart _).stands).congr
      (by simp only [frameByte, hres]) (by simp only [frameByte, untold, hres])
  | errorDelim =>
    exact (hdecoded.stands.comp (poolBlind_dropFrame .framingError .waitFrameStart _).stands).congr
      (by simp only [frameByte, hres]) (by simp only [frameByte, untold, hres])

theorem stands_receiveByte (b : Byte) (s : State) : Stands d n (receiveByte b) s := by
  by_cases hidle : s.linkState = .idle
  · exact Stands.refl.congr (if_pos hidle) (if_pos hidle)
  have hopen (t : State) (ht : t.linkState = s.linkState) : ¬ t.linkState = .idle := ht ▸ hidle
  cases hr : s.rxState with
  | waitDelimiter =>
    by_cases hb : b = Config.delimByte
    · have hstarts : PoolBlind (fun s => { s with rxState := .waitFrameStart }) s := fun _ _ => rfl
      exact hstarts.stands.congr (by simp only [receiveByte, if_neg hidle, hr, if_pos hb])
        (by simp only [receiveByte, untold, if_neg hidle, hr, if_pos hb])
    · exact Stands.refl.congr (by simp only [receiveByte, if_neg hidle, hr, if_neg hb])
        (by simp only [receiveByte, untold, if_neg hidle, hr, if_neg hb])
  | waitFrameStart =>
    by_cases hb : b = Config.delimByte
    · exact Stands.refl.congr (by simp only [receiveByte, if_neg hidle, hr, if_pos hb])
        (by simp only [receiveByte, untold, if_neg hidle, hr, if_pos hb])
    · have hbegins : PoolBlind (fun s => { s with rxState := .waitHeader, rxHdr := [], escState := .noesc }) s :=
        fun _ _ => rfl
      exact (hbegins.stands.comp (stands_frameByte b _)).congr
        (by simp only [receiveByte, if_neg hidle, hr, if_neg hb])
        (by simp only [receiveByte, untold, if_neg hidle, hr, if_neg hb])
  | waitHeader =>
    exact (stands_frameByte b s).congr (by simp only [receiveByte, if_neg hidle, hr])
      (by simp only [receiveByte, untold, if_neg hidle, hr])
  | waitPayload =>
    exact (stands_frameByte b s).congr (by simp only [receiveByte, if_neg hidle, hr])
      (by simp only [receiveByte, untold, if_neg hidle, hr])
  | waitCrc =>
    exact (stands_frameByte b s).congr (by simp only [receiveByte, if_neg hidle, hr])
      (by simp only [receiveByte, untold, if_neg hidle, hr])

theorem stands_receiveBytes (bytes : List Byte) (s : State) : Stands d n (receiveBytes bytes) s := by
  induction bytes generalizing s with
  | nil => exact Stands.refl
  | cons b bytes ih => exact (stands_receiveByte b s).comp (ih _)

theorem stands_submitOp (ptype : PType) (reliable : Bool) (payload : List Byte) (owned : Bool) (tag : Nat) (s : State) :
    Stands d n (submitOp ptype reliable payload owned tag) s := by
  have hreject (code : ErrCode) : Stands d n (rejectSubmit code payload owned) s :=
    (poolBlind_rejectSubmit code payload owned s).stands
  by_cases hidle : s.linkState = .idle
  · exact (hreject .notOpen).congr (if_pos hidle) (if_pos hidle)
  by_cases hnot : s.linkState ≠ .active
  · exact (hreject .linkNotActive).congr ((if_neg hidle).trans (if_pos hnot)) ((if_neg hidle).trans (if_pos hnot))
  by_cases htype : (!submittable ptype) = true
  · exact (hreject .invalidPacketType).congr (((if_neg hidle).trans (if_neg hnot)).trans (if_pos htype))
      (((if_neg hidle).trans (if_neg hnot)).trans (if_pos htype))
  by_cases hlong : payload.length > Config.maxPayload
  · exact (hreject .payloadTooLarge).congr ((((if_neg hidle).trans (if_neg hnot)).trans (if_neg htype)).trans (if_pos hlong))
      ((((if_neg hidle).trans (if_neg hnot)).trans (if_neg htype)).trans (if_pos hlong))
  have heq {t : State} (hl : t.linkState = s.linkState) :
      submitOp ptype reliable payload owned tag t =
        asking payload.length (enqueueSubmit ⟨ptype, reliable, payload, owned, some tag, 0⟩)
          (rejectSubmit .allocationFailure payload owned) t := by
    obtain ⟨ok, rest, draws, h⟩ := acquire_spec payload.length t
    rw [submitOp, hl, if_neg hidle, if_neg hnot, if_neg htype, if_neg hlong, asking, h]
    cases ok
    · rfl
    · rfl
  exact (stands_asking (fun t => (poolBlind_enqueueSubmit _ t).stands)
    (fun t => (poolBlind_rejectSubmit _ _ _ t).stands) _ s).congr (heq rfl) (heq rfl)

theorem stands_openOp (s : State) : Stands d n openOp s := by
  by_cases hidle : s.linkState = .idle
  · have hresets : PoolBlind (fun s => { s.resetRegs with linkState := .syncing }) s := fun _ _ => rfl
    have hstarts (t : State) : PoolBlind (fun t => answer .ok (startSyncTimer t)) t := fun _ _ => rfl
    exact ((hresets.stands.comp (stands_lcSend .sync _)).comp (hstarts _).stands).congr (if_pos hidle) (if_pos hidle)
  · have hanswers : PoolBlind (answer .alreadyOpen) s := fun _ _ => rfl
    exact hanswers.stands.congr (if_neg hidle) (if_neg hidle)

theorem stands_syncExpireOp (s : State) : Stands d n syncExpireOp s := by
  have hrestarts (t : State) : PoolBlind restartSyncTimer t := fun _ _ => rfl
  exact ((poolBlind_countSyncRetry s).stands.comp (stands_lcSend .sync _)).comp (hrestarts _).stands

/-! ### An instruction -/

/-- An instruction that completes applies one function, the same where the timers' flags are the same, and while told answers
remain it does the same untold. -/
theorem stands_exec {i : Instr} {s t : State} (h : exec i s = .next t) :
    ∃ f : State → State, t = f s.begin ∧ Stands d n f s.begin ∧
      ∀ u : State, u.rtxTimerArmed = s.rtxTimerArmed → u.syncTimerArmed = s.syncTimerArmed →
        exec i u = .next (f u.begin) := by
  cases runs_of_exec h with
  | @wire i wire hwire =>
    exact ⟨receiveBytes wire, rfl, stands_receiveBytes _ _, fun u _ _ => exec_of_wireBytes hwire u⟩
  | rxByte b => exact ⟨receiveByte b, rfl, stands_receiveByte _ _, fun _ _ _ => rfl⟩
  | openLink => exact ⟨openOp, rfl, stands_openOp _, fun _ _ _ => rfl⟩
  | closeLink => exact ⟨closeOp, rfl, (poolBlind_closeOp _).stands, fun _ _ _ => rfl⟩
  | submit ptype reliable payload owned tag =>
    exact ⟨submitOp ptype reliable payload owned tag, rfl, stands_submitOp _ _ _ _ _ _, fun _ _ _ => rfl⟩
  | release id => exact ⟨releaseOp id, rfl, (poolBlind_releaseOp id _).stands, fun _ _ _ => rfl⟩
  | txPull => exact ⟨pullOp, rfl, (poolBlind_pullOp _).stands, fun _ _ _ => rfl⟩
  | rtxExpire harmed =>
    have hblind : PoolBlind rtxExpireOp s.begin := fun _ _ => rfl
    exact ⟨rtxExpireOp, rfl, hblind.stands, fun _ hu _ => if_pos (hu.trans harmed)⟩
  | syncExpire harmed =>
    exact ⟨syncExpireOp, rfl, stands_syncExpireOp _, fun _ _ hu => if_pos (hu.trans harmed)⟩

end

/-- Settles O54. -/
theorem givenAnswersStandForTheFreeValue : Obligations.GivenAnswersStandForTheFreeValue := by
  intro i n s t free hnone h hleft
  obtain ⟨f, rfl, hstands, hrun⟩ := stands_exec (d := s.poolDraws) (n := n) h
  have htold : Told s.poolDraws n { s with poolAnswers := free }.begin := ⟨rfl, 0, rfl⟩
  have hstart : untold s.poolDraws n { s with poolAnswers := free }.begin = s.begin := by
    have hlen : free.length = n := by simp [free]
    simp only [untold, State.begin, hlen, Nat.sub_self, Nat.add_zero]
    rw [← hnone]
  obtain ⟨⟨hdraws, k, hk⟩, hend⟩ := (hstands hleft).2 htold
  have hlt : k < n := by
    by_contra hge
    exact hleft (List.eq_nil_of_length_eq_zero (by rw [hk, length_drop_freeAnswers]; omega))
  have htaken : n - (f { s with poolAnswers := free }.begin).poolAnswers.length = k := by
    rw [hk, length_drop_freeAnswers]
    omega
  refine ⟨k, hk, ?_⟩
  rw [hrun s rfl rfl, ← hstart, hend, untold, htaken]

end Sys2Proof.Machine
end

section
/-! PROOF. Two blocks facing each other (20_memory R51, 42_arq_engine R136 to R141): a frame that one builds, received by the other
between two frames, is one header row and its closing delimiter; O59 and O60. -/

namespace Sys2Proof.Machine

/-! ### A built frame at the peer -/

/-- The header of a frame built in `x`, with its acknowledgment and CRC setting of this moment (R139). -/
abbrev sentHeader (x : State) : PType → Bool → SeqNum → List Byte → HdrFields :=
  builtHeader x.expectedRxSeq x.crcTxEnable

/-- A built frame passes an ACTIVE peer's checks when its number, if it is reliable, is the expected one. -/
theorem builtFrame_passes {x y : State} {ptype : PType} {rel : Bool} {seq : SeqNum} {payload : List Byte}
    {answers : List Bool} (hinv : Inv y) (hactive : y.linkState = .active) (hboundary : AtBoundary y)
    (hseq : rel = true → seq = y.expectedRxSeq) (hfits : payload.length ≤ Config.maxPayload)
    (hpool : y.poolAnswers = true :: answers) :
    PassesChecks ptype (sentHeader x ptype rel seq payload) payload.length answers y where
  inv := hinv
  isOpen := by simp [hactive]
  gate _ := hactive
  boundary := hboundary
  checksum := builtHeader_checksum ..
  sequence := hseq
  len := toNat_length hfits
  pool := hpool

/-- The bytes of a built frame, whatever the sender's escaping, are the header row of the same fields and payload, then a
delimiter. -/
theorem runOps_builtFrame {x y t : State} {ptype : PType} {rel : Bool} {seq : SeqNum} {payload : List Byte} {i : Instr}
    (hm : (ptype, i) ∈ allFrames (sentHeader x ptype rel seq payload)
      (frameRest ptype (sentHeader x ptype rel seq payload) payload))
    (hopen : y.linkState ≠ .idle) (hboundary : AtBoundary y) (hrow : exec i y = .next t) (ht : t.linkState ≠ .idle)
    (hwaits : t.rxState = .waitDelimiter) :
    runOps ((frameBytes x ptype rel seq payload).map .rxByte) y = .next { t with rxState := .waitFrameStart } := by
  rw [receiveFrame_eq_feed hm hopen hboundary] at hrow
  cases hrow
  rw [runOps_rxByte, frameBytes, encodeFrame, frameBody_eq, receiveBytes_append, List.singleton_append,
    receive_hdrBytes _ _ _ _ y.begin hopen hboundary]
  exact congrArg _ (receive_delim _ ht (.inl hwaits))

theorem exists_ordinaryFrame {ptype : PType} (hack : ptype ≠ 0) (hlc : ptype ≠ 15) (h : HdrFields) (rest : List Byte) :
    ∃ i, (ptype, i) ∈ ordinaryFrames h rest := by
  have htypes : ptype ∈ (ordinaryFrames h rest).map Prod.fst := by
    show ptype ∈ ([1, 2, 3, 4, 5, 6, 7, 8, 9, 10, 11, 12, 13, 14] : List PType)
    revert ptype
    decide
  obtain ⟨⟨_, i⟩, hm, rfl⟩ := List.mem_map.mp htypes
  exact ⟨i, hm⟩

/-- The peer after a whole frame of an ordinary type that passes its checks. -/
def delivers (ptype : PType) (h : HdrFields) (payload : List Byte) (answers : List Bool) (y : State) : State :=
  { committed h answers y with
    rxState := .waitFrameStart
    inboundQ := y.inboundQ ++ [{ id := y.rxIdNext, ptype := ptype, payload := payload }]
    rxIdNext := y.rxIdNext + 1
    out := (committed h answers y).out ++ [.onPacket y.rxIdNext ptype payload] }

theorem linkState_committed (h : HdrFields) (answers : List Bool) (s : State) :
    (committed h answers s).linkState = s.linkState := by
  obtain ⟨k, armed, events, hshape⟩ := committed_shape h answers s
  rw [hshape]

/-- What a reliable packet leaves the peer's ARQ registers at (R121). -/
theorem delivers_reliable {h : HdrFields} (hrel : h.reliable = true) (ptype : PType) (payload : List Byte)
    (answers : List Bool) (y : State) :
    let t := delivers ptype h payload answers y
    t.linkState = y.linkState ∧ t.pendUnrelQ = y.pendUnrelQ ∧ t.pendRelQ = y.pendRelQ ∧
      t.expectedRxSeq = h.seq + 1 ∧ t.ackPending = true ∧ t.lastPeerAck = h.ack := by
  obtain ⟨k, armed, events, hshape⟩ := committed_shape h answers y
  simp [delivers, hshape, hrel]

theorem runOps_packet {x y : State} {ptype : PType} {rel : Bool} {seq : SeqNum} {payload : List Byte} {answers : List Bool}
    (hack : ptype ≠ 0) (hlc : ptype ≠ 15)
    (hpass : PassesChecks ptype (sentHeader x ptype rel seq payload) payload.length answers y) :
    runOps ((frameBytes x ptype rel seq payload).map .rxByte) y =
      .next (delivers ptype (sentHeader x ptype rel seq payload) payload answers y) := by
  obtain ⟨i, hm⟩ := exists_ordinaryFrame hack hlc (sentHeader x ptype rel seq payload)
    (frameRest ptype (sentHeader x ptype rel seq payload) payload)
  exact runOps_builtFrame (ordinaryFrames_mem hm).1 hpass.isOpen hpass.boundary
    (ordinaryFrameIsDelivered _ _ _ _ _ _ hm hpass) (by exact linkState_committed _ answers y ▸ hpass.isOpen) rfl

theorem runOps_ack {x y : State} {answers : List Bool}
    (hpass : PassesChecks 0 (sentHeader x 0 false 0 []) 0 answers y) :
    let h := sentHeader x 0 false 0 []
    runOps ((frameBytes x 0 false 0 []).map .rxByte) y = .next
      { committed h answers y with
        rxState := .waitFrameStart
        out := (committed h answers y).out ++ [.pool (.release [])] } :=
  runOps_builtFrame (by simp [allFrames]) hpass.isOpen hpass.boundary (ackFrameIsConsumed _ [] answers y hpass)
    (by exact linkState_committed _ answers y ▸ hpass.isOpen) rfl

/-! ### A packet and its acknowledgment -/

/-- Settles O59. -/
theorem pulledPacketIsDeliveredByThePeer : Obligations.PulledPacketIsDeliveredByThePeer := by
  intro x y e rest answers hopen hunrel hq hwindow hfits hack hlc hinv hactive hboundary hseq hpool
  have hpass := builtFrame_passes (x := x) (ptype := e.ptype) (rel := true) hinv hactive hboundary
    (fun _ => hseq.symm) hfits hpool
  obtain ⟨-, -, -, hexpects, hpending, hpeer⟩ :=
    delivers_reliable (h := sentHeader x e.ptype true x.nextTxSeq e.payload) rfl e.ptype e.payload
      answers y
  exact ⟨_, _, frameBytes x e.ptype true x.nextTxSeq e.payload,
    pullSendsReliableWithinWindow e rest x hopen hunrel hq hwindow, List.mem_cons_of_mem _ (List.mem_singleton_self _),
    runOps_packet hack hlc hpass, rfl, List.mem_append_right _ (List.mem_singleton_self _), hexpects, hpending, hpeer, rfl⟩

/-- An acknowledgment of every entry in flight releases them all and stops the timer (R141). -/
theorem committed_acksAll {h : HdrFields} {s : State} (answers : List Bool) (hwindow : s.unackQ.length ≤ Config.window)
    (hack : h.ack = s.nextTxSeq) :
    committed h answers s =
      { s with
        poolAnswers := answers
        expectedRxSeq := if h.reliable then h.seq + 1 else s.expectedRxSeq
        ackPending := s.ackPending || h.reliable
        lastPeerAck := h.ack
        unackQ := []
        rtxTimerArmed := false
        out := [.pool (.acquire (h.len.toNat + Config.hdrLen) s.params.headerReserve)] ++ endEvents s.unackQ ++
          [.timer .rtx .stop] } := by
  rw [committed, commits, prune_eq_by_distance _ _ (by exact Nat.lt_of_le_of_lt hwindow (by decide))]
  simp [hack]

/-- Settles O60: the packet by O26 and its header row, the acknowledgment by O27 and its own; it acknowledges the one entry in
flight. -/
theorem reliableExchangeCompletes : Obligations.ReliableExchangeCompletes := by
  intro x y e rest answers answers' hinvx hactivex hboundaryx hunrel hq hnone hpoolx hack hlc hinvy hactivey hboundaryy hseq
    hunrely hrely hpooly
  have hopenx : x.linkState ≠ .idle := by simp [hactivex]
  have hfits : e.payload.length ≤ Config.maxPayload := hinvx.pendRelFit e (by simp [hq])
  have hpull := pullSendsReliableWithinWindow e rest x hopenx hunrel hq (by simp [hnone])
  have hpass := builtFrame_passes (x := x) (ptype := e.ptype) (rel := true) hinvy hactivey hboundaryy (fun _ => hseq.symm)
    hfits hpooly
  have hdelivered := runOps_packet hack hlc hpass
  obtain ⟨hlink, hunrel1, hrel1, hexpects, hpending, -⟩ :=
    delivers_reliable (h := sentHeader x e.ptype true x.nextTxSeq e.payload) rfl e.ptype e.payload
      answers' y
  have hinbound : (delivers e.ptype (sentHeader x e.ptype true x.nextTxSeq e.payload) e.payload
      answers' y).inboundQ = y.inboundQ ++ [{ id := y.rxIdNext, ptype := e.ptype, payload := e.payload }] := rfl
  generalize delivers e.ptype (sentHeader x e.ptype true x.nextTxSeq e.payload) e.payload
    answers' y = y1 at hdelivered hlink hunrel1 hrel1 hexpects hpending hinbound
  have hactive1 : y1.linkState = .active := hlink.trans hactivey
  have hanswer := ((pullAcknowledgesOrIsSilent y1).2.1 (by simp [hactive1]) (hunrel1.trans hunrely)
    (.inl (hrel1.trans hrely))).1 hpending hactive1
  have hinv1 := hinvx.exec hpull
  have hpass1 := builtFrame_passes (x := y1) (ptype := 0) (rel := false) (seq := 0) (payload := []) hinv1 hactivex hboundaryx
    (by simp) (by simp) hpoolx
  have hcommit := committed_acksAll (h := sentHeader y1 0 false 0 []) answers hinv1.window hexpects
  refine ⟨_, _, y1, _, _, _, hpull, List.mem_cons_of_mem _ (List.mem_singleton_self _), by simp [hnone],
    hdelivered, hinbound, hanswer, List.mem_singleton_self _, rfl, runOps_ack hpass1, ?_⟩
  rw [hcommit]
  refine ⟨rfl, fun event hevent => ?_, rfl, hexpects, rfl⟩
  have hentry : endEvents [{ e with seq := x.nextTxSeq }] = endEvents [e] := rfl
  simp only [hnone, List.nil_append, hentry, List.mem_append]
  exact .inl (.inl (.inr hevent))

end Sys2Proof.Machine
end
